-- ==== Sys2Proof/Word.lean ====
section
/-!
DEFINITION. The word types of the engine: a 32-bit register word, a level in units of 0.05 dB (R8, R10).
-/

namespace Sys2Proof

/-- One register word: 32 bits, aligned (R10). -/
abbrev Word := BitVec 32

/-- A level, gain or loss as an exact count of 0.05 dB units (R8). The 16-bit coding is applied where a
register, an item or a message carries it. -/
abbrev Level := Int

/-- One byte of capture memory. -/
abbrev Byte := BitVec 8

end Sys2Proof
end

