-- ==== Sys2Proof/Data.lean ====
section
/-!
DEFINITION. The data that commands carry: samples, descriptors, estimates, frames, records of a token.
-/

namespace Sys2Proof

/-- A sample with its flags (R72, R73): a real sample uses `i` alone. -/
structure Sample where
  i : BitVec 14
  q : BitVec 14
  ovr : Bool
  inv : Bool
deriving DecidableEq, Repr

/-- The corrections of one sub-converter (R65, R68): gain in 0.001 dB, skew in fs, offset in codes, and bandwidth. -/
structure SubCorr where
  gain : Int
  skew : Int
  offs : Int
  band : Int
deriving DecidableEq, Repr

/-- A DMA descriptor (Table 14.8). -/
structure Desc where
  hostAddr : Nat
  devAddr : Nat
  len : Nat
  flags : Nat
deriving DecidableEq, Repr

/-- How a command's key of a queue is given: a segment queue m, or a global queue g. -/
inductive QueueId where
  | seg (m : Fin 16384)
  | glob (g : Fin 8)
deriving DecidableEq, Repr

/-- What an isolation estimate measured (R194 to R206). Couplings are in 0.01 dB, levels in level units. -/
structure Estimate where
  /-- Own branches measured: branch code, coupling C_b, detected. -/
  own : List (Nat × Int × Bool)
  /-- Couplings of the cross branches. -/
  cross : List Int
  snr : Int
  /-- Δ = 10 log10(E_H / E_R) of a detected estimate, not yet limited to SNR_H. -/
  depth : Int
  /-- E_H, on the scale of the guard windows' energies. -/
  eH : Nat
  /-- H_win within the present window, 128 taps with their block exponent. -/
  taps : List (Int × Int)
  exp : Nat
  /-- A window that captures at least 3 dB more: bulk delay, its taps and exponent, the depth against those taps. -/
  better : Option (Nat × List (Int × Int) × Nat × Int)
  irRef : Int
  /-- Impulse responses: branch code and 512 taps, I in the upper half. -/
  ir : List (Nat × List Nat)
  /-- Some own output branch sent no probe chip at all: discarded. -/
  lost : Bool
deriving DecidableEq, Repr

/-- What a monitor converter makes of its input: a code, or a clamp beyond either end of the span (R321). -/
inductive Reading where
  | code (c : BitVec 14)
  | high
  | low
deriving DecidableEq, Repr

/-- What a scheduled action needs from outside: the device tick it runs in, a capture's first-sample offset, and the
samples a stopped capture ends with, by channel. -/
structure ActInput where
  tick : Nat
  offs : Nat
  samples : List (Nat × List Sample)
deriving DecidableEq, Repr

/-- What a clock measures over a frame: the loop grid against its boundary (clock 0), the sync SNR and its rate. -/
structure ClkMeas where
  offs : Int
  snr : Int
  rate : Int
deriving DecidableEq, Repr

/-- A phase error found at a lock or a jump (R128, R129): e in air ticks, the frame number recovered, whether a boundary
lies between the held and the recovered timing with the air ticks the held timing still had left to it, and the actions skipped
before and after that boundary. -/
structure StepInput where
  e : Int
  frame : Option (Fin 1024)
  crossed : Bool
  left : Nat
  before : List (Fin 256)
  after : List (Fin 256)
  act : ActInput
deriving DecidableEq, Repr

/-- A segment's levels over the loop period before (R96): IN_RAW, IN, OUT, and whether IN and OUT are valid. -/
structure SegLevels where
  seg : Nat
  inRaw : Int
  inn : Int
  out : Int
  inOk : Bool
  outOk : Bool
deriving DecidableEq, Repr

/-- What is sampled at phase 0.00 µs: the levels, the segments whose gating is scheduled for phase 25.00 µs, SP_PWM's duty
in 0.01 % with its period in µs, for each port the composite without back-off and the forward power OBS measured, each
converter's peak and RMS level, and each listening slot's input density over the last second. -/
structure LatchIn where
  levels : List SegLevels
  gated : List Nat
  pwm : Option (Nat × Nat)
  pre : List Int
  fwd : List (Option Int)
  conv : List (Int × Int)
  bwin : List (Int × Int)
  nf : List (Option Int)
deriving DecidableEq, Repr

/-- What the IMAGE step finds in its slot (R451): the trust store and the key list readable and unchanged, MAGIC and FORMAT,
the key index and its OID, the signature, the digest. -/
structure ImgCheck where
  store : Bool
  head : Bool
  key : Bool
  sig : Bool
  digest : Bool
deriving DecidableEq, Repr

/-- What the end of a start step finds (Table 18.1): its own check (rails in tolerance; a journal copy readable; training and
pattern test; three passes of slot 13), the hold-up energy in mJ, feeds whose stored values cannot be read (R56), the image,
the clusters that fail their check, the ports and filter-bank positions out of limits, the baseplate temperature in 0.1 °C. -/
structure StepIn where
  ok : Bool
  mj : Nat
  badFeeds : List Nat
  image : ImgCheck
  clusters : List Nat
  filters : List (Nat × Nat)
  temp : Int
deriving DecidableEq, Repr

/-- A write of the host to the MSI-X structures (R358). -/
inductive MsixWrite where
  | entry (vec : Fin 2048) (addr : BitVec 64) (data : BitVec 32) (masked : Bool)
  | control (enable mask : Bool)
deriving DecidableEq, Repr

/-- An access to the capture window (R357, R380). -/
inductive WindowAccess where
  | read (len : Nat)
  | write (bytes : List Byte)
deriving DecidableEq, Repr

/-- What reaches the engine in one band-window sample, 1 / 491.52 MHz: the twenty inputs of each ADC and of each OBS, in converter
codes; and the samples of head input branches that fall in it: segment, row among those of the frame that carry its samples, and
the 28 bits at that place of the row before, of the row and of the row after (R63, R299 to R301). -/
structure TickIn where
  adc : List (List Int)
  obs : List (List Int)
  head : List (Nat × Nat × Nat × Nat × Nat)
deriving DecidableEq, Repr

/-- What happens to the engine beside the commands: a read of a register, and a band-window sample. -/
inductive Ambient where
  | read (page : Fin 16384) (word : Fin 1024)
  | tick (x : TickIn)
deriving DecidableEq, Repr

end Sys2Proof
end

