-- ==== Sys2Proof/Machine/Coding.lean ====
section
/-!
DEFINITION. The coding of Cricket frames: CRC-8, CRC-16, the convolutional code, and a frame's symbols (Table 8.1, Table 8.2,
R219, R220). Bits go out most significant first.
-/

namespace Sys2Proof.Machine

/-- An integer's `k` low bits, and an integer's big-endian bytes, most significant first. -/
def msbBits (v k : Nat) : List Bool := (List.range k).map fun i => decide (v / 2 ^ (k - 1 - i) % 2 = 1)
def beBytes (v : Nat) : Nat → List Nat
  | 0 => []
  | k + 1 => v / 256 ^ k % 256 :: beBytes v k
def ofBe (l : List Nat) : Nat := l.foldl (fun a b => a * 256 + b) 0
/-- Bytes i to i + k − 1 of a payload as a number. -/
def beAt (l : List Nat) (i k : Nat) : Nat := ofBe ((l.drop i).take k)

/-- A cyclic redundancy check of `w` bits over a bit string. -/
def crcBits (w poly init : Nat) (bits : List Bool) : Nat :=
  bits.foldl (fun c b =>
    let top := decide (c / 2 ^ (w - 1) % 2 = 1)
    let s := c * 2 % 2 ^ w
    if top = b then s else s ^^^ poly) init

/-- CRC-8 of a header's bits 47:8: x^8 + x^2 + x + 1, from 0x00. -/
def crc8 (bits : List Bool) : Nat := crcBits 8 0x07 0 bits
/-- CRC-16 of a payload: x^16 + x^12 + x^5 + 1, from 0xFFFF. -/
def crc16 (bytes : List Nat) : Nat := crcBits 16 0x1021 0xFFFF ((bytes.map fun b => msbBits b 8).flatten)

/-- A header's 48 bits (Table 8.2), VER 0. -/
def headerBits (typ len src dst : Nat) : List Bool :=
  let h := msbBits 0 2 ++ msbBits typ 4 ++ msbBits len 6 ++ msbBits src 14 ++ msbBits dst 14
  h ++ msbBits (crc8 h) 8

/-- A header as received: VER, TYPE, LEN, SRC, DST, and whether the CRC8 passes. -/
structure Header where
  ver : Nat
  typ : Nat
  len : Nat
  src : Nat
  dst : Nat
  ok : Bool
deriving DecidableEq, Repr

def headerOf (w : BitVec 48) : Header :=
  let v := w.toNat
  { ver := v / 2 ^ 46, typ := v / 2 ^ 42 % 16, len := v / 2 ^ 36 % 64, src := v / 2 ^ 22 % 2 ^ 14, dst := v / 2 ^ 8 % 2 ^ 14,
    ok := decide (crc8 (msbBits (v / 256) 40) = v % 256) }

/-- The parity of the bits of a register that a generator taps. -/
def tapParity : Nat → List Bool → Bool
  | _, [] => false
  | g, b :: t => xor (decide (g % 2 = 1) && b) (tapParity (g / 2) t)

/-- The code of rate 1/2 and constraint length 7, from the zero state; the symbol of generator 171 goes first. The highest digit
of a generator taps the bit that enters (PRESUMED, log entry 71). The register is kept oldest bit first. -/
def convFrom : List Bool → List Bool → List Bool
  | _, [] => []
  | reg, b :: t =>
    let r := reg ++ [b]
    tapParity 0o171 r :: tapParity 0o133 r :: convFrom (r.drop 1) t
def convCode (bits : List Bool) : List Bool := convFrom (List.replicate 6 false) (bits ++ List.replicate 6 false)

/-- A frame's symbols, one to a code period (Table 8.1); `crc` is the CRC-16 sent. -/
def frameSymbols (typ src dst : Nat) (bytes : List Nat) (crc : Nat) : List Bool :=
  List.replicate 8 false ++ List.replicate 2 true ++ convCode (headerBits typ bytes.length src dst)
    ++ convCode ((bytes.map fun b => msbBits b 8).flatten ++ msbBits crc 16)

end Sys2Proof.Machine
end

