-- ==== Sys2Proof/Config.lean ====
section
/-!
DEFINITION. What a part fixes at manufacture, and the values the spec leaves open.
-/

namespace Sys2Proof

/-- The band set of a part (R1). -/
inductive PartSet where
  | A
  | E
  | W
deriving DecidableEq, Repr, Inhabited

/-- The grade of a part (R2). -/
inductive Grade where
  | S
  | X
deriving DecidableEq, Repr, Inhabited

/-- What is fixed at manufacture or by the loaded image (R398). -/
structure Part where
  set : PartSet
  grade : Grade
  serial : Nat
  board : Nat
  silicon : Nat
  mapRev : Nat
  pageRev : Nat
deriving DecidableEq, Repr, Inhabited

namespace Config

/-- The part in hand: any part the spec allows. -/
opaque part : Part

/-- Calibrated transmit noise of a port, and its noise figure (Table 7.12): set by calibration. -/
opaque txNoise : Nat → Nat
opaque rxNoise : Nat → Nat

/-- E_cal of an extension port in 0.1 ns (R313): set by calibration. -/
opaque extCal : Nat → Int

/-- The quiescent current target of a port's amplifier at calibration temperature (Table 10.5). -/
opaque idqTarget : Nat → Nat

/-- The calibration store's OFFSET and GAIN of a monitor channel (Table 12.8). -/
opaque corrOffset : Nat → Nat
opaque corrGain : Nat → Nat

/-- By how much the survey density of a segment is lowered so that the probe power on a port keeps its bound (R193): the
spec does not say how the lowering is shared. -/
opaque surveyCut : Nat → Nat

/-- INTEG of an integrator that its 32 bits do not hold. -/
opaque integOpen : Int → Nat

/-- The image keys and the attestation key of the part: signature type and 68 bytes as 17 dwords (R451, R453). -/
opaque imgKeys : List (Nat × List Nat)
opaque attKey : Option (Nat × List Nat)

/-- The signature type that an OID names: 0 XMSS, 1 XMSS^MT, any other none. NIST SP 800-208 assigns the OIDs (R450). -/
opaque oidType : Nat → Nat

/-- Byte i of an attestation report with the given contents: R455 lists them and gives no layout. -/
opaque attByte : List Nat → Nat → Nat

/-- A value the spec leaves open, the n-th one a run meets. -/
opaque freeValue : Nat → Nat

/-- A wide value the spec leaves open (a signature's bytes, a digest), the n-th one a run meets. -/
opaque freeBytes : Nat → Nat → Nat

/-- The next value of the injectors' 16-bit maximal-length sequence: R476 does not give its polynomial. -/
opaque injNext : BitVec 16 → BitVec 16

/-- The correlation cluster, 0 to 11 of clusters 2 to 13, that carries a segment's estimates. -/
opaque clusterOf : Nat → Nat

/-- Whether the engine rounds up a quotient whose rounding the spec does not state. -/
opaque roundUp : Int → Nat → Bool

/-- What the fixed front stage makes of a converter's last codes, newest first, in band window w, whose coefficients the spec
does not give; and its delay in band-window samples, by which the flags follow (R75, R85). -/
opaque front : Nat → List Int → Int × Int
opaque frontDelay : Nat

/-- A sample turned by a phase of 2^-32 turns: how the oscillator rounds is not stated (R82). -/
opaque rotate : Nat → Int × Int → Int × Int

/-- One half and the centre of the coefficients of decimating stage j, in 2^-17 (R87). -/
opaque halfBand : Nat → List Int
opaque halfCentre : Nat → Int

/-- Where an amplitude between two neighbours of a two-thousandth of a decade lies. -/
opaque ampOpen : Int → Nat

/-- The gain in level units at which stage 9 passes a sample unchanged, and the density that gives a probe the unit amplitude at
a branch's connector: set by calibration. -/
opaque gainRef : Nat
opaque probeRef : Nat → Nat

/-- One half and the centre of the root-raised-cosine filter, 33 samples at two to a chip, in 2^-16, and of the 63 taps that
realise a mask given as (offset in hertz, attenuation in level units) points, in 2^-16 (R187, R191). -/
opaque rrcHalf : Nat → Int
opaque rrcCentre : Int
opaque maskHalf : List (Int × Nat) → Nat → Int
opaque maskCentre : List (Int × Nat) → Int

/-- Stage 11's interpolator: rate code, the place within the segment sample in band-window samples, the branch's buffer in
converter samples, and stage 10's last samples, newest first (R98, R101). -/
opaque interpolate : Nat → Nat → Nat → List (Int × Int) → Int × Int

/-- The calibration trim of an output port's position, in 2^-16 (R98). -/
opaque trim : Nat → Nat → Nat

/-- The twenty DAC values of a band-window sample from the port's last predistorted windows, newest first (R275). -/
opaque upConvert : Nat → List (List (Int × Int)) → Nat → Int

/-- The comb source, whose teeth at multiples of 3.84 MHz repeat every 2,560 converter samples (R480), and the noise of a
terminated input, at a converter. -/
opaque comb : Nat → Nat → Int
opaque noise : Nat → Nat → Int

end Config

end Sys2Proof
end

