-- ==== Sys2Proof/Machine/Store.lean ====
section
/-!
DEFINITION. Sparse tables in one canonical form, register fields, and the signed 16-bit coding of levels.
-/

namespace Sys2Proof.Machine

/-- Sparse data by key: keys strictly rising, and no entry equal to what an unlisted key reads as. -/
abbrev Table (α : Type) := List (Nat × α)

/-- The value at a key; `dflt` says what an unlisted key reads as. -/
def tget {α : Type} (dflt : Nat → α) : Table α → Nat → α
  | [], k => dflt k
  | (j, v) :: t, k => if j = k then v else tget dflt t k

/-- The entries of every other key. -/
def terase {α : Type} : Table α → Nat → Table α
  | [], _ => []
  | (j, w) :: t, k => if j = k then terase t k else (j, w) :: terase t k

/-- Put an entry before the first larger key. -/
def tinsert {α : Type} : Table α → Nat → α → Table α
  | [], k, v => [(k, v)]
  | (j, w) :: t, k, v => if k < j then (k, v) :: (j, w) :: t else (j, w) :: tinsert t k v

/-- Put an entry, or remove it where the value is the one an unlisted key reads as. -/
def tset {α : Type} [DecidableEq α] (dflt : Nat → α) (t : Table α) (k : Nat) (v : α) : Table α :=
  if v = dflt k then terase t k else tinsert (terase t k) k v

/-- Every key of a table lies above a bound. -/
def tabove {α : Type} (b : Nat) (t : Table α) : Bool := t.all fun e => decide (b < e.1)

/-- The canonical form of a table. -/
def twf {α : Type} [DecidableEq α] (dflt : Nat → α) : Table α → Bool
  | [] => true
  | (j, v) :: t => tabove j t && decide (v ≠ dflt j) && twf dflt t

/-- A register field: byte offset of its register in the page, lowest bit, width (Tables 2.7 to 20.4). -/
structure Fld where
  off : Nat
  lo  : Nat
  wd  : Nat
deriving DecidableEq, Repr

/-- The field's value in a word. -/
def wordGet (f : Fld) (w : Word) : Nat := w.toNat / 2 ^ f.lo % 2 ^ f.wd

/-- The word with one field replaced. -/
def wordSet (f : Fld) (w : Word) (v : Nat) : Word :=
  BitVec.ofNat 32
    (w.toNat / 2 ^ (f.lo + f.wd) * 2 ^ (f.lo + f.wd) + (v % 2 ^ f.wd) * 2 ^ f.lo + w.toNat % 2 ^ f.lo)

/-- The signed value of a 16-bit code (R8). -/
def s16 (n : Nat) : Int := if n % 65536 < 32768 then (n % 65536 : Nat) else (n % 65536 : Nat) - 65536

/-- Clamp to the range of a signed 16-bit code. -/
def clamp16 (z : Int) : Int := max (-32768) (min 32767 z)

/-- The 16-bit code of a signed value, clamped (R8). -/
def u16 (z : Int) : Nat := ((clamp16 z + 65536) % 65536).toNat

/-- The 32-bit two's complement code of an integer. -/
def u32 (z : Int) : Nat := (z % 4294967296).toNat

/-- Bit `i` of a natural number. -/
def nbit (n i : Nat) : Bool := n / 2 ^ i % 2 == 1

/-- Set bit `i`. -/
def nbitSet (n i : Nat) : Nat := if nbit n i then n else n + 2 ^ i

/-- Clear bit `i`. -/
def nbitClr (n i : Nat) : Nat := if nbit n i then n - 2 ^ i else n

/-- Set or clear bit `i`. -/
def nbitPut (n i : Nat) (b : Bool) : Nat := if b then nbitSet n i else nbitClr n i

/-- A Bool as a bit. -/
def b2n (b : Bool) : Nat := if b then 1 else 0

/-- A count that saturates at the largest value of its width. -/
def satAdd (wd a b : Nat) : Nat := min (2 ^ wd - 1) (a + b)

/-- A quotient: exact where it is whole; where it is not, one of the two whole numbers about it, and the spec does not state
which. -/
def quot (z : Int) (k : Nat) : Int := if z % k = 0 then z / k else z / k + (if Config.roundUp z k then 1 else 0)

/-- The whole number nearest to a quotient, ties towards +∞. -/
def nearest (z : Int) (k : Nat) : Int := (2 * z + k) / (2 * k)

end Sys2Proof.Machine
end

