-- ==== Sys2Proof/Machine/Level.lean ====
section
/-!
DEFINITION. Sums of powers that are given as levels (R189, R193, R195): 10^(k/2000) in fixed point, and the level nearest to
a sum. A level unit is ten of these steps, a hundredth of a dB is two.
-/

namespace Sys2Proof.Machine

/-- 2^96 × 10^(i/10), × 10^(i/100) and × 10^(i/1000) for i = 0 to 9, and 2^96 × 10^(1/2000), to the nearest. -/
def pow10a : List Nat := [
   79228162514264337593543950336, 99742347118965433378564067653, 125568175420060325683508381415,
   158080966948941670747279675476, 199012146413016529403508036772, 250541448375047931186413801570,
   315412996067064302065144637745, 397081435958960969258832426402, 499895910280454173663799990592,
   629331664704040836416136311543]
def pow10b : List Nat := [
   79228162514264337593543950336, 81073623492127430609742772098, 82962070778302321621735293954,
   84894505652536695457376681810, 86871952717379670642661268718, 88895460441439633162414689119,
   90966101715296170749233025908, 93084974420360859566593314735, 95253202010988520804997463627,
   97471934110147590284550240131]
def pow10c : List Nat := [
   79228162514264337593543950336, 79410802291334243152930988449, 79593863096572789365982385150,
   79777345900550142451497516610, 79961251676073863932716749153, 80145581398194068366172550560,
   80330336044208592960333544428, 80515516593668179111450311030, 80701124028381665884074921915,
   80887159332421195463789524964]
def pow10d : Nat := 79319429834851588214380107775

/-- 2^96 × 10^(k/2000). The fixed point is far finer than the rounding of any level needs. -/
def tenPow (k : Nat) : Nat :=
  let r := k % 2000
  let m := pow10a.getD (r / 200) 0 * pow10b.getD (r / 20 % 10) 0 * pow10c.getD (r / 2 % 10) 0 / 2 ^ 192
  (if r = 0 then 2 ^ 96 else if r % 2 = 1 then m * pow10d / 2 ^ 96 else m) * 10 ^ (k / 2000)

/-- 2^64 × artanh(p/q), for |p/q| at most 1/3: the series, whose rest is below its last digit. -/
def artanh (p q : Int) : Int :=
  ((List.range 24).map fun i => p ^ (2 * i + 1) * 2 ^ 64 / (((2 * i + 1 : Nat) : Int) * q ^ (2 * i + 1))).foldl (· + ·) 0
/-- 2^64 × the natural logarithm of a/b, for a and b above 0: a/b is 2^k times a ratio between 1/2 and 2. -/
def lnRatio (a b : Nat) : Int :=
  let la := Nat.log2 a
  let lb := Nat.log2 b
  let x : Int := a * 2 ^ lb
  let y : Int := b * 2 ^ la
  ((la : Int) - lb) * (2 * artanh 1 3) + 2 * artanh (x - y) (x + y)

def minOf : List Int → Int
  | [] => 0
  | [x] => x
  | x :: t => min x (minOf t)
def maxInt : List Int → Int
  | [] => 0
  | [x] => x
  | x :: t => max x (maxInt t)

/-- The sum of weighted powers given in steps of 1/2000 decade, relative to the level `lo`. -/
def powSum (lo : Int) (l : List (Int × Nat)) : Nat :=
  (l.map fun x => tenPow (x.1 - lo).toNat * x.2).foldl (· + ·) 0

/-- The least level whose power, `half` steps further up, reaches the sum of weighted powers given in steps. -/
def levelOver (half : Nat) (l : List (Int × Nat)) : Int :=
  let xs := l.map Prod.fst
  let lo := minOf xs - 20
  let n0 := (maxInt xs - 9) / 10
  let s := powSum lo l
  match (List.range 2400).find? fun (i : Nat) => decide (s ≤ tenPow (10 * (n0 + i) + half - lo).toNat) with
  | some i => n0 + i
  | none => n0

/-- The level nearest to a sum of powers given in steps (DEDUCED, log entry 69: the worked example of R195 shows the nearest
unit). No power at all is -32,768. -/
def nearestLevel (l : List Int) : Int := if l = [] then -32768 else levelOver 5 (l.map (·, 1))

/-- The sum of powers given in level units. -/
def psum (l : List Int) : Int := nearestLevel (l.map (10 * ·))
/-- The sum of powers given in hundredths of a dB, in level units, and one of them in level units. -/
def psumC (l : List Int) : Int := nearestLevel (l.map (2 * ·))
def nearC (c : Int) : Int := (2 * c + 5) / 10

end Sys2Proof.Machine
end

