-- ==== Sys2Proof/Machine/RegMap.lean ====
section
/-!
DEFINITION. The register fields of every page (Tables 2.7 to 20.4): their places, widths, access and reset.
-/

namespace Sys2Proof.Machine

namespace PORT

def PORT_INFO_FITTED : Fld := ⟨0x40, 8, 8⟩
def PORT_INFO_SET : Fld := ⟨0x40, 2, 2⟩
def PORT_INFO_INDEX : Fld := ⟨0x40, 0, 2⟩
def BAND_EN_EN : Fld := ⟨0x44, 0, 8⟩
def BAND_STAT_UNTESTED : Fld := ⟨0x48, 8, 8⟩
def BAND_STAT_ACTIVE : Fld := ⟨0x48, 0, 8⟩
def TR_CFG_FORCE1 : Fld := ⟨0x4c, 12, 2⟩
def TR_CFG_FORCE0 : Fld := ⟨0x4c, 10, 2⟩
def TR_CFG_CLK1 : Fld := ⟨0x4c, 4, 4⟩
def TR_CFG_CLK0 : Fld := ⟨0x4c, 0, 4⟩
def TR_STAT_STATE1 : Fld := ⟨0x50, 3, 1⟩
def TR_STAT_STATE0 : Fld := ⟨0x50, 2, 1⟩
def TR_STAT_HOLD1 : Fld := ⟨0x50, 1, 1⟩
def TR_STAT_HOLD0 : Fld := ⟨0x50, 0, 1⟩
def TDD_WIN_CENTRE (i : Nat) : Fld := ⟨0x54 + 4 * i, 0, 32⟩

end PORT

namespace DCF

def DCF_CTRL_RELEASE : Fld := ⟨0x40, 8, 1⟩
def DCF_CTRL_VSEL : Fld := ⟨0x40, 4, 2⟩
def DCF_CTRL_ENABLE : Fld := ⟨0x40, 0, 1⟩
def DCF_ILIM_ILIMIT : Fld := ⟨0x44, 0, 7⟩
def DCF_OPEN_OPEN_TH : Fld := ⟨0x48, 0, 7⟩
def DCF_STAT_OPEN : Fld := ⟨0x4c, 15, 1⟩
def DCF_STAT_LAST_CAUSE : Fld := ⟨0x4c, 12, 2⟩
def DCF_STAT_RETRY : Fld := ⟨0x4c, 8, 2⟩
def DCF_STAT_STATE : Fld := ⟨0x4c, 0, 3⟩
def DCF_MEAS_VOLTAGE : Fld := ⟨0x50, 16, 16⟩
def DCF_MEAS_CURRENT : Fld := ⟨0x50, 0, 16⟩
def DCF_COUNT_ARC_CNT : Fld := ⟨0x54, 16, 16⟩
def DCF_COUNT_TRIP_CNT : Fld := ⟨0x54, 0, 16⟩

end DCF

namespace CONV

def CONV_INFO_SUBCONV : Fld := ⟨0x40, 16, 8⟩
def CONV_INFO_TYPE : Fld := ⟨0x40, 4, 4⟩
def CONV_INFO_INDEX : Fld := ⟨0x40, 0, 2⟩
def CONV_CTRL_CAL_START : Fld := ⟨0x44, 8, 1⟩
def CONV_CTRL_BG_EN : Fld := ⟨0x44, 4, 1⟩
def CONV_CTRL_INPUT_SEL : Fld := ⟨0x44, 0, 2⟩
def CAL_STAT_UPDATES : Fld := ⟨0x48, 16, 16⟩
def CAL_STAT_BG_CONV : Fld := ⟨0x48, 11, 1⟩
def CAL_STAT_BG_HELD : Fld := ⟨0x48, 10, 1⟩
def CAL_STAT_SOURCE : Fld := ⟨0x48, 8, 2⟩
def CAL_STAT_STATE : Fld := ⟨0x48, 0, 3⟩
def CAL_QUAL_WORST_SPUR : Fld := ⟨0x4c, 16, 16⟩
def CAL_QUAL_CAL_TEMP : Fld := ⟨0x4c, 0, 16⟩
def LEVEL_PEAK : Fld := ⟨0x50, 16, 16⟩
def LEVEL_RMS : Fld := ⟨0x50, 0, 16⟩
def OVR_CNT_EVENTS : Fld := ⟨0x54, 0, 32⟩

end CONV

namespace CGLB

def GLB_CTRL_CAL_ALL : Fld := ⟨0x40, 1, 1⟩
def GLB_CTRL_CAL_SAVE : Fld := ⟨0x40, 0, 1⟩
def GLB_STAT_SAVE_OK : Fld := ⟨0x44, 13, 1⟩
def GLB_STAT_SAVE_BUSY : Fld := ⟨0x44, 12, 1⟩
def GLB_STAT_CAL_FAIL : Fld := ⟨0x44, 0, 12⟩
def SAVE_AGE_SECONDS : Fld := ⟨0x48, 0, 32⟩

end CGLB

namespace SEG

def PATH_CFG_ACTIVE : Fld := ⟨0x40, 31, 1⟩
def PATH_CFG_DIR : Fld := ⟨0x40, 30, 1⟩
def PATH_CFG_CLOCK : Fld := ⟨0x40, 24, 4⟩
def PATH_CFG_RATE : Fld := ⟨0x40, 18, 3⟩
def PATH_CFG_PROFILE : Fld := ⟨0x40, 16, 2⟩
def PATH_CFG_CARRIER_GRP : Fld := ⟨0x40, 0, 10⟩
def CENTRE : Fld := ⟨0x44, 0, 32⟩
def WIDTH : Fld := ⟨0x48, 0, 32⟩
def ROUTE_OUT_MASK : Fld := ⟨0x4c, 16, 12⟩
def ROUTE_IN_BRANCH : Fld := ⟨0x4c, 0, 4⟩
def CHF_CFG_TAPS : Fld := ⟨0x50, 0, 8⟩
def CHF_COEF_C (i : Nat) : Fld := ⟨0x100 + 4 * i, 0, 18⟩
def SHIFT_CHF : Fld := ⟨0x54, 24, 3⟩
def SHIFT_DEC7 : Fld := ⟨0x54, 21, 3⟩
def SHIFT_DEC6_0 : Fld := ⟨0x54, 0, 21⟩
def COEF_CTRL_SEAL : Fld := ⟨0x58, 0, 1⟩
def COEF_STAT_COPYING : Fld := ⟨0x5c, 2, 1⟩
def COEF_STAT_UNSEALED : Fld := ⟨0x5c, 1, 1⟩
def COEF_STAT_BUILDING : Fld := ⟨0x5c, 0, 1⟩
def SEG_CMD_SYNC_RESET : Fld := ⟨0x60, 0, 1⟩
def SEG_STAT_INV_LEFT : Fld := ⟨0x64, 16, 16⟩
def SEG_STAT_INV_CAUSE : Fld := ⟨0x64, 8, 4⟩
def SEG_STAT_DEGRADED : Fld := ⟨0x64, 4, 1⟩
def SEG_STAT_STATE : Fld := ⟨0x64, 0, 3⟩
def DELAY_STAT_MATCH : Fld := ⟨0x68, 0, 16⟩
def DCB_CTRL_DEGRADED : Fld := ⟨0x6c, 16, 1⟩
def DCB_CTRL_TC : Fld := ⟨0x6c, 8, 4⟩
def DCB_CTRL_FREEZE : Fld := ⟨0x6c, 4, 1⟩
def DCB_CTRL_MODE : Fld := ⟨0x6c, 0, 2⟩
def DCB_EST_EST_I : Fld := ⟨0x70, 16, 16⟩
def DCB_EST_EST_Q : Fld := ⟨0x70, 0, 16⟩
def DCB_STAT_BURST : Fld := ⟨0x74, 4, 1⟩
def DCB_STAT_TURN : Fld := ⟨0x74, 3, 1⟩
def DCB_STAT_HOST : Fld := ⟨0x74, 2, 1⟩
def DCB_STAT_ACTING : Fld := ⟨0x74, 0, 1⟩
def TONE_CFG_OFFSET : Fld := ⟨0x78, 0, 32⟩
def TONE_RES_RATIO : Fld := ⟨0x7c, 16, 16⟩
def TONE_RES_SEQ : Fld := ⟨0x7c, 1, 15⟩
def TONE_RES_VALID : Fld := ⟨0x7c, 0, 1⟩
def LEVEL_IN_IN : Fld := ⟨0x80, 16, 16⟩
def LEVEL_IN_IN_RAW : Fld := ⟨0x80, 0, 16⟩
def LEVEL_OUT_OUT : Fld := ⟨0x84, 16, 16⟩
def LEVEL_OUT_OUT_VALID : Fld := ⟨0x84, 1, 1⟩
def LEVEL_OUT_IN_VALID : Fld := ⟨0x84, 0, 1⟩
def SAT_CNT0_DEC1 : Fld := ⟨0x88, 16, 16⟩
def SAT_CNT0_DEC0 : Fld := ⟨0x88, 0, 16⟩
def SAT_CNT1_DEC3 : Fld := ⟨0x8c, 16, 16⟩
def SAT_CNT1_DEC2 : Fld := ⟨0x8c, 0, 16⟩
def SAT_CNT2_DEC5 : Fld := ⟨0x90, 16, 16⟩
def SAT_CNT2_DEC4 : Fld := ⟨0x90, 0, 16⟩
def SAT_CNT3_DEC7 : Fld := ⟨0x94, 16, 16⟩
def SAT_CNT3_DEC6 : Fld := ⟨0x94, 0, 16⟩
def SAT_CNT4_GAIN : Fld := ⟨0x98, 16, 16⟩
def SAT_CNT4_CHF : Fld := ⟨0x98, 0, 16⟩
def INV_CNT_RUNS : Fld := ⟨0x9c, 16, 16⟩
def INV_CNT_TONE_DISCARD : Fld := ⟨0x9c, 0, 16⟩
def PRB_CFG_NPTS : Fld := ⟨0x800, 8, 6⟩
def PRB_CFG_OFF : Fld := ⟨0x800, 4, 1⟩
def PRB_CFG_LEN_AUTO : Fld := ⟨0x800, 2, 1⟩
def PRB_CFG_LEN : Fld := ⟨0x800, 0, 2⟩
def PRB_LEVEL_REL : Fld := ⟨0x804, 0, 16⟩
def PRB_STAT_DENS : Fld := ⟨0x808, 16, 16⟩
def PRB_STAT_SURVEY : Fld := ⟨0x808, 3, 1⟩
def PRB_STAT_BURST : Fld := ⟨0x808, 2, 1⟩
def PRB_STAT_LEN_NOW : Fld := ⟨0x808, 0, 2⟩
def IR_START_START : Fld := ⟨0x850, 0, 16⟩
def PMASK_OFFS (i : Nat) : Fld := ⟨0x900 + 4 * i, 14, 18⟩
def PMASK_ATTEN (i : Nat) : Fld := ⟨0x900 + 4 * i, 0, 11⟩
def ISO_CFG_MARGIN : Fld := ⟨0x80c, 16, 16⟩
def ISO_CFG_CREDIT_UP : Fld := ⟨0x80c, 0, 16⟩
def ISO_TIME_MAXAGE : Fld := ⟨0x810, 16, 16⟩
def ISO_TIME_INT_TIME : Fld := ⟨0x810, 0, 16⟩
def CAUT_CFG_FIRST : Fld := ⟨0x814, 16, 16⟩
def CAUT_CFG_DROP : Fld := ⟨0x814, 0, 16⟩
def GUARD_CFG_CYCLES : Fld := ⟨0x818, 0, 11⟩
def ISO_STAT_ISO : Fld := ⟨0x81c, 16, 16⟩
def ISO_STAT_SEQ : Fld := ⟨0x81c, 8, 8⟩
def ISO_STAT_GUARD : Fld := ⟨0x81c, 4, 1⟩
def ISO_STAT_BOUND : Fld := ⟨0x81c, 3, 1⟩
def ISO_STAT_LG_SET : Fld := ⟨0x81c, 1, 1⟩
def ISO_STAT_VALID : Fld := ⟨0x81c, 0, 1⟩
def ISO_AUX_ISO_X : Fld := ⟨0x820, 16, 16⟩
def ISO_AUX_LAST_GOOD : Fld := ⟨0x820, 0, 16⟩
def ISO_AGE_SNR_H : Fld := ⟨0x824, 16, 16⟩
def ISO_AGE_AGE : Fld := ⟨0x824, 0, 16⟩
def CAP_ISO_CAP : Fld := ⟨0x838, 16, 16⟩
def CAP_ISO_BASIS : Fld := ⟨0x838, 0, 3⟩
def COUPLE_C (i : Nat) : Fld := ⟨0x880 + 4 * i, 16, 16⟩
def COUPLE_BOUND (i : Nat) : Fld := ⟨0x880 + 4 * i, 1, 1⟩
def COUPLE_VALID (i : Nat) : Fld := ⟨0x880 + 4 * i, 0, 1⟩
def CANC_CFG_EXP : Fld := ⟨0x828, 16, 5⟩
def CANC_CFG_MU : Fld := ⟨0x828, 8, 3⟩
def CANC_CFG_BULK_AUTO : Fld := ⟨0x828, 4, 1⟩
def CANC_CFG_MODE : Fld := ⟨0x828, 0, 2⟩
def CANC_BULK_LIMIT : Fld := ⟨0x82c, 16, 16⟩
def CANC_BULK_BULK : Fld := ⟨0x82c, 0, 16⟩
def CANC_STAT_CREDIT : Fld := ⟨0x830, 16, 16⟩
def CANC_STAT_DEPTH : Fld := ⟨0x830, 0, 16⟩
def CANC_NOW_BULK_NOW : Fld := ⟨0x834, 16, 16⟩
def CANC_NOW_EXP_NOW : Fld := ⟨0x834, 0, 5⟩
def CANC_CNT_GUARD_FAILS : Fld := ⟨0x83c, 16, 16⟩
def CANC_CNT_MOVES : Fld := ⟨0x83c, 0, 16⟩
def CANC_TAP_I (i : Nat) : Fld := ⟨0xa00 + 4 * i, 16, 16⟩
def CANC_TAP_Q (i : Nat) : Fld := ⟨0xa00 + 4 * i, 0, 16⟩
def CANC_W_I (i : Nat) : Fld := ⟨0xc00 + 4 * i, 16, 16⟩
def CANC_W_Q (i : Nat) : Fld := ⟨0xc00 + 4 * i, 0, 16⟩
def IR_SEL_HIST : Fld := ⟨0x840, 8, 4⟩
def IR_SEL_BRANCH : Fld := ⟨0x840, 0, 4⟩
def IR_IDX_IDX : Fld := ⟨0x844, 0, 9⟩
def IR_DATA_I : Fld := ⟨0x848, 16, 16⟩
def IR_DATA_Q : Fld := ⟨0x848, 0, 16⟩
def IR_HDR_IR_REF : Fld := ⟨0x84c, 16, 16⟩
def IR_HDR_SEQ : Fld := ⟨0x84c, 0, 16⟩

end SEG

namespace BWIN

def THR_CTRL_ENABLE : Fld := ⟨0x40, 0, 1⟩
def THR_LEVEL_THRESH : Fld := ⟨0x44, 0, 16⟩
def THR_CNT_REPLACED : Fld := ⟨0x48, 0, 32⟩
def BW_LEVEL_PEAK : Fld := ⟨0x4c, 16, 16⟩
def BW_LEVEL_RMS : Fld := ⟨0x4c, 0, 16⟩

end BWIN

namespace AIR

def SRC_CFG_EN : Fld := ⟨0x40, 31, 1⟩
def SRC_CFG_RAT : Fld := ⟨0x40, 28, 2⟩
def SRC_CFG_PORT : Fld := ⟨0x40, 24, 1⟩
def SRC_CFG_SSB_SCS : Fld := ⟨0x40, 20, 2⟩
def SRC_CFG_CELL_EN : Fld := ⟨0x40, 16, 1⟩
def SRC_CFG_CELL : Fld := ⟨0x40, 0, 10⟩
def SRC_FREQ_FREQ : Fld := ⟨0x44, 0, 32⟩
def CLK_STAT_HOLD_LEFT : Fld := ⟨0x48, 24, 8⟩
def CLK_STAT_CELL_FOUND : Fld := ⟨0x48, 12, 10⟩
def CLK_STAT_EVER_LOCKED : Fld := ⟨0x48, 5, 1⟩
def CLK_STAT_SFN_KNOWN : Fld := ⟨0x48, 4, 1⟩
def CLK_STAT_STATE : Fld := ⟨0x48, 0, 3⟩
def FRAME_NOW_HYPER : Fld := ⟨0x4c, 16, 16⟩
def FRAME_NOW_FRAME : Fld := ⟨0x4c, 0, 10⟩
def TICK_LATCH_TICK : Fld := ⟨0x50, 0, 19⟩
def GSM_FN_FN : Fld := ⟨0x54, 0, 22⟩
def SYNC_QUAL_SNR : Fld := ⟨0x58, 16, 16⟩
def SYNC_QUAL_RATE : Fld := ⟨0x58, 0, 16⟩
def STEP_INFO_LAST_STEP : Fld := ⟨0x5c, 16, 16⟩
def STEP_INFO_STEP_CNT : Fld := ⟨0x5c, 0, 16⟩
def SCHED_STAT_COMMIT_SEQ : Fld := ⟨0x60, 16, 16⟩
def SCHED_STAT_LAST_FRAME : Fld := ⟨0x60, 0, 10⟩
def SCHED_CNT_LATE : Fld := ⟨0x64, 16, 16⟩
def SCHED_CNT_STEPPED : Fld := ⟨0x64, 0, 16⟩
def REF_CFG_J13_TYPE : Fld := ⟨0xd0, 1, 1⟩
def REF_CFG_J13_EN : Fld := ⟨0xd0, 0, 1⟩
def REF_STAT_FREQ_OFFS : Fld := ⟨0xd4, 16, 16⟩
def REF_STAT_LOOP_ALIGNED : Fld := ⟨0xd4, 4, 1⟩
def REF_STAT_J13_PRESENT : Fld := ⟨0xd4, 3, 1⟩
def REF_STAT_SOURCE : Fld := ⟨0xd4, 0, 2⟩
def LOOP_OFFS_OFFS : Fld := ⟨0xd8, 0, 16⟩
def DEV_LOOP_LO_COUNT : Fld := ⟨0xdc, 0, 32⟩
def DEV_LOOP_HI_COUNT : Fld := ⟨0xe0, 0, 32⟩
def ACT_TIME_EN (i : Nat) : Fld := ⟨0x800 + 8 * i, 31, 1⟩
def ACT_TIME_REF (i : Nat) : Fld := ⟨0x800 + 8 * i, 30, 1⟩
def ACT_TIME_TYPE (i : Nat) : Fld := ⟨0x800 + 8 * i, 24, 4⟩
def ACT_TIME_TICK (i : Nat) : Fld := ⟨0x800 + 8 * i, 0, 19⟩
def ACT_CTL_REPEAT (i : Nat) : Fld := ⟨0x804 + 8 * i, 30, 2⟩
def ACT_CTL_EXP (i : Nat) : Fld := ⟨0x804 + 8 * i, 26, 4⟩
def ACT_CTL_FRAME (i : Nat) : Fld := ⟨0x804 + 8 * i, 16, 10⟩
def ACT_CTL_ARG (i : Nat) : Fld := ⟨0x804 + 8 * i, 0, 16⟩

end AIR

namespace PAT

def PAT_SEL_SEG : Fld := ⟨0x80, 0, 10⟩
def PAT_HDR_UL_ADV : Fld := ⟨0x84, 16, 16⟩
def PAT_HDR_RUNS : Fld := ⟨0x84, 8, 5⟩
def PAT_HDR_SCS : Fld := ⟨0x84, 0, 2⟩
def PAT_RUN_DIR (i : Nat) : Fld := ⟨0x88 + 4 * i, 16, 2⟩
def PAT_RUN_SYMBOLS (i : Nat) : Fld := ⟨0x88 + 4 * i, 0, 11⟩
def PAT_STAT_SHORT_TICKS : Fld := ⟨0xc8, 16, 16⟩
def PAT_STAT_EMPTY : Fld := ⟨0xc8, 1, 1⟩
def PAT_STAT_TDD : Fld := ⟨0xc8, 0, 1⟩

end PAT

namespace LOOP

def LOOP_CTRL_SP_SRC : Fld := ⟨0x40, 8, 3⟩
def LOOP_CTRL_FE_EN : Fld := ⟨0x40, 4, 1⟩
def LOOP_CTRL_TRACK : Fld := ⟨0x40, 1, 1⟩
def LOOP_CTRL_MODE : Fld := ⟨0x40, 0, 1⟩
def SP_REG_SP : Fld := ⟨0x44, 0, 16⟩
def SP_MAP_SP_HI : Fld := ⟨0x48, 16, 16⟩
def SP_MAP_SP_LO : Fld := ⟨0x48, 0, 16⟩
def TRACK_CFG_TRACK_OFFS : Fld := ⟨0x4c, 16, 16⟩
def TRACK_CFG_TRACK_SEG : Fld := ⟨0x4c, 0, 10⟩
def SP_RATE_RATE : Fld := ⟨0x50, 0, 16⟩
def MAN_GAIN_GAIN : Fld := ⟨0x54, 0, 16⟩
def GAIN_LIM_CFG_MAX : Fld := ⟨0x58, 16, 16⟩
def GAIN_LIM_FLOOR : Fld := ⟨0x58, 0, 16⟩
def SLEW_UP : Fld := ⟨0x5c, 16, 16⟩
def SLEW_DN : Fld := ⟨0x5c, 0, 16⟩
def RGN_A_TH1 : Fld := ⟨0x60, 16, 16⟩
def RGN_A_TH2 : Fld := ⟨0x60, 0, 16⟩
def RGN_B_TH3 : Fld := ⟨0x64, 16, 16⟩
def RGN_B_HYST : Fld := ⟨0x64, 0, 16⟩
def MARGIN_CFG_TH : Fld := ⟨0x68, 16, 16⟩
def MARGIN_CFG_HYST : Fld := ⟨0x68, 0, 16⟩
def FE_CFG_LIMIT : Fld := ⟨0x6c, 16, 16⟩
def FE_CFG_TIME : Fld := ⟨0x6c, 0, 16⟩
def LOOP_STAT_CAP_SRC : Fld := ⟨0x70, 28, 3⟩
def LOOP_STAT_SET : Fld := ⟨0x70, 24, 3⟩
def LOOP_STAT_HOLD : Fld := ⟨0x70, 16, 7⟩
def LOOP_STAT_PEND_XFER : Fld := ⟨0x70, 7, 1⟩
def LOOP_STAT_SP_FAULT : Fld := ⟨0x70, 6, 1⟩
def LOOP_STAT_FE : Fld := ⟨0x70, 5, 1⟩
def LOOP_STAT_SAT_LO : Fld := ⟨0x70, 4, 1⟩
def LOOP_STAT_SAT_HI : Fld := ⟨0x70, 3, 1⟩
def LOOP_STAT_MODE_NOW : Fld := ⟨0x70, 1, 1⟩
def LOOP_STAT_RUN : Fld := ⟨0x70, 0, 1⟩
def GAIN_NOW_GAIN : Fld := ⟨0x74, 16, 16⟩
def GAIN_NOW_CAP : Fld := ⟨0x74, 0, 16⟩
def SP_NOW_RAMPED : Fld := ⟨0x78, 16, 16⟩
def SP_NOW_TARGET : Fld := ⟨0x78, 0, 16⟩
def TERMS_A_FF : Fld := ⟨0x7c, 16, 16⟩
def TERMS_A_P : Fld := ⟨0x7c, 0, 16⟩
def TERMS_B_D : Fld := ⟨0x80, 16, 16⟩
def TERMS_B_U : Fld := ⟨0x80, 0, 16⟩
def INTEG_I : Fld := ⟨0x84, 0, 32⟩
def CAPS_A_ISO : Fld := ⟨0x88, 16, 16⟩
def CAPS_A_NOISE : Fld := ⟨0x88, 0, 16⟩
def CAPS_B_NEIGH : Fld := ⟨0x8c, 16, 16⟩
def CAPS_B_THERM : Fld := ⟨0x8c, 0, 16⟩
def CAPS_C_TRIM : Fld := ⟨0x90, 16, 16⟩
def FE_STAT_COUNT : Fld := ⟨0x94, 16, 16⟩
def FE_STAT_RISE : Fld := ⟨0x94, 1, 1⟩
def FE_STAT_ACTIVE : Fld := ⟨0x94, 0, 1⟩
def SP_IN_VALUE : Fld := ⟨0x98, 16, 16⟩
def SP_IN_PERIOD : Fld := ⟨0x98, 0, 16⟩
def LOOP_CNT_SWAPS : Fld := ⟨0x9c, 16, 16⟩
def LOOP_CNT_FE_FAULTS : Fld := ⟨0x9c, 0, 16⟩
def COEF_CTRL_SEAL : Fld := ⟨0xa0, 0, 1⟩
def COEF_STAT_COPYING : Fld := ⟨0xa4, 2, 1⟩
def COEF_STAT_UNSEALED : Fld := ⟨0xa4, 1, 1⟩
def COEF_STAT_BUILDING : Fld := ⟨0xa4, 0, 1⟩
def SET_PK_KP (i : Nat) : Fld := ⟨0x100 + 16 * i, 16, 16⟩
def SET_PK_KI (i : Nat) : Fld := ⟨0x100 + 16 * i, 0, 16⟩
def SET_DA_KD (i : Nat) : Fld := ⟨0x104 + 16 * i, 16, 16⟩
def SET_DA_ALPHA (i : Nat) : Fld := ⟨0x104 + 16 * i, 0, 16⟩
def SET_FF_W_FF (i : Nat) : Fld := ⟨0x108 + 16 * i, 0, 16⟩

end LOOP

namespace LGLB

def TRACE_CTX_A_CTX1 : Fld := ⟨0x40, 16, 10⟩
def TRACE_CTX_A_CTX0 : Fld := ⟨0x40, 0, 10⟩
def TRACE_CTX_B_CTX3 : Fld := ⟨0x44, 16, 10⟩
def TRACE_CTX_B_CTX2 : Fld := ⟨0x44, 0, 10⟩
def TRACE_CH_SLOT (i : Nat) : Fld := ⟨0x48 + 4 * i, 4, 2⟩
def TRACE_CH_QTY (i : Nat) : Fld := ⟨0x48 + 4 * i, 0, 4⟩
def TRACE_CTRL_PRE : Fld := ⟨0x68, 20, 12⟩
def TRACE_CTRL_TRIG_SLOT : Fld := ⟨0x68, 16, 2⟩
def TRACE_CTRL_TRIG_SRC : Fld := ⟨0x68, 8, 3⟩
def TRACE_CTRL_FORCE : Fld := ⟨0x68, 1, 1⟩
def TRACE_CTRL_ARM : Fld := ⟨0x68, 0, 1⟩
def TRACE_STAT_FIRST : Fld := ⟨0x6c, 16, 12⟩
def TRACE_STAT_STATE : Fld := ⟨0x6c, 0, 3⟩
def DITH_CTRL_START : Fld := ⟨0x70, 31, 1⟩
def DITH_CTRL_STOP : Fld := ⟨0x70, 30, 1⟩
def DITH_CTRL_AMP : Fld := ⟨0x70, 24, 4⟩
def DITH_CTRL_CTX : Fld := ⟨0x70, 8, 10⟩
def DITH_CTRL_HALF : Fld := ⟨0x70, 0, 8⟩
def DITH_STAT_ENTRIES : Fld := ⟨0x74, 16, 11⟩
def DITH_STAT_STATE : Fld := ⟨0x74, 0, 2⟩
def BUF_SEL_BUF : Fld := ⟨0x78, 0, 4⟩
def BUF_IDX_IDX : Fld := ⟨0x7c, 0, 12⟩
def BUF_DATA_ENTRY : Fld := ⟨0x80, 0, 32⟩

end LGLB

namespace PRB

def NODE_NODE_ID : Fld := ⟨0x40, 0, 14⟩
def SOUND_CFG_LEN : Fld := ⟨0x44, 16, 10⟩
def SOUND_CFG_BOOST : Fld := ⟨0x44, 0, 9⟩
def SURVEY_CFG_BOOST : Fld := ⟨0x48, 0, 9⟩
def SOUND_STAT_ACTIVE : Fld := ⟨0x4c, 0, 12⟩
def TXN (i : Nat) : Fld := ⟨0x50 + 4 * i, 16, 16⟩
def TXN_NF (i : Nat) : Fld := ⟨0x50 + 4 * i, 0, 16⟩
def POOL_USED : Fld := ⟨0x60, 0, 21⟩

end PRB

namespace LNK

def LNK_CTRL_EN : Fld := ⟨0x40, 0, 1⟩
def LNK_TIMER_HELLO_INT : Fld := ⟨0x44, 16, 16⟩
def LNK_TIMER_REPORT_INT : Fld := ⟨0x44, 0, 16⟩
def LNK_HOLD_HOLD : Fld := ⟨0x48, 16, 16⟩
def LNK_HOLD_STALE : Fld := ⟨0x48, 0, 16⟩
def LNK_MARGIN_LOOP_MARGIN : Fld := ⟨0x4c, 16, 16⟩
def LNK_MARGIN_RELEASE_HYST : Fld := ⟨0x4c, 0, 16⟩
def LNK_DET_DET_TH : Fld := ⟨0x50, 16, 16⟩
def LNK_DET_CAPTURE : Fld := ⟨0x50, 0, 16⟩
def LNK_TXP_TX_BOOST : Fld := ⟨0x54, 16, 16⟩
def LNK_TXP_YIELD_WAIT : Fld := ⟨0x54, 0, 16⟩
def LNK_WAIT_ACK_WAIT : Fld := ⟨0x58, 0, 16⟩
def LNK_CPL_CPL_TIME : Fld := ⟨0x5c, 0, 16⟩
def LNK_STAT_SEQ : Fld := ⟨0x60, 16, 16⟩
def LNK_STAT_DUP_ID : Fld := ⟨0x60, 15, 1⟩
def LNK_STAT_MODEM : Fld := ⟨0x60, 14, 1⟩
def LNK_STAT_NB_COUNT : Fld := ⟨0x60, 0, 9⟩
def LNK_CNT0_RX_OK : Fld := ⟨0x64, 16, 16⟩
def LNK_CNT0_TX_OK : Fld := ⟨0x64, 0, 16⟩
def LNK_CNT1_DETECT : Fld := ⟨0x68, 16, 16⟩
def LNK_CNT1_FALSE_START : Fld := ⟨0x68, 0, 16⟩
def LNK_CNT2_PAY_CRC : Fld := ⟨0x6c, 16, 16⟩
def LNK_CNT2_PREEMPT : Fld := ⟨0x6c, 0, 16⟩
def LNK_CNT3_IGNORED : Fld := ⟨0x70, 16, 16⟩
def LNK_CNT3_DEAF_ABORT : Fld := ⟨0x70, 0, 16⟩
def LNK_CNT4_REFUSED : Fld := ⟨0x74, 16, 16⟩
def LNK_CNT4_DUPLICATE : Fld := ⟨0x74, 0, 16⟩
def NB_SEL_SLOT : Fld := ⟨0x80, 8, 4⟩
def NB_SEL_IDX : Fld := ⟨0x80, 0, 8⟩
def NB_ENTRY_ID : Fld := ⟨0x84, 16, 14⟩
def NB_ENTRY_PIN : Fld := ⟨0x84, 15, 1⟩
def NB_ENTRY_PROV : Fld := ⟨0x84, 14, 1⟩
def NB_ENTRY_NO_ACK : Fld := ⟨0x84, 13, 1⟩
def NB_ENTRY_BOUND_IN : Fld := ⟨0x84, 12, 1⟩
def NB_ENTRY_BOUND_OUT : Fld := ⟨0x84, 11, 1⟩
def NB_ENTRY_OWE : Fld := ⟨0x84, 10, 1⟩
def NB_ENTRY_STATE : Fld := ⟨0x84, 0, 3⟩
def NB_CPL_C_IN : Fld := ⟨0x88, 16, 16⟩
def NB_CPL_C_OUT : Fld := ⟨0x88, 0, 16⟩
def NB_GAIN_G_NB : Fld := ⟨0x8c, 16, 16⟩
def NB_GAIN_Y_NB : Fld := ⟨0x8c, 0, 16⟩
def NB_LOOP_LP : Fld := ⟨0x90, 16, 16⟩
def NB_LOOP_K : Fld := ⟨0x90, 0, 16⟩
def NB_AGE_HEARD : Fld := ⟨0x94, 16, 16⟩
def NB_AGE_REPORT : Fld := ⟨0x94, 0, 16⟩
def NB_CMD_OP : Fld := ⟨0x98, 30, 2⟩
def NB_CMD_ID : Fld := ⟨0x98, 0, 14⟩

end LNK

namespace LSN

def LSN_CFG_EN (i : Nat) : Fld := ⟨0x40 + 16 * i, 31, 1⟩
def LSN_CFG_FRAMES (i : Nat) : Fld := ⟨0x40 + 16 * i, 30, 1⟩
def LSN_CFG_SEG (i : Nat) : Fld := ⟨0x40 + 16 * i, 0, 10⟩
def LSN_STAT_GF (i : Nat) : Fld := ⟨0x44 + 16 * i, 16, 16⟩
def LSN_STAT_RX (i : Nat) : Fld := ⟨0x44 + 16 * i, 8, 3⟩
def LSN_STAT_SF (i : Nat) : Fld := ⟨0x44 + 16 * i, 6, 2⟩
def LSN_STAT_TDD (i : Nat) : Fld := ⟨0x44 + 16 * i, 1, 1⟩
def LSN_STAT_VALID (i : Nat) : Fld := ⟨0x44 + 16 * i, 0, 1⟩
def LSN_NF_NF (i : Nat) : Fld := ⟨0x48 + 16 * i, 16, 16⟩
def LSN_NF_METRIC (i : Nat) : Fld := ⟨0x48 + 16 * i, 0, 16⟩

end LSN

namespace LTX

def TLK_CFG_EN (i : Nat) : Fld := ⟨0x40 + 8 * i, 31, 1⟩
def TLK_CFG_BRANCH (i : Nat) : Fld := ⟨0x40 + 8 * i, 24, 4⟩
def TLK_CFG_SF (i : Nat) : Fld := ⟨0x40 + 8 * i, 20, 2⟩
def TLK_CFG_SEG (i : Nat) : Fld := ⟨0x40 + 8 * i, 0, 10⟩
def TLK_STAT_SENT (i : Nat) : Fld := ⟨0x44 + 8 * i, 16, 16⟩
def TLK_STAT_STATE (i : Nat) : Fld := ⟨0x44 + 8 * i, 0, 3⟩
def TXQ_STAT_PENDING : Fld := ⟨0x80, 0, 10⟩

end LTX

namespace NP

def NP_TIME_WATCH : Fld := ⟨0x40, 0, 16⟩
def NP_TONE_TONE_TH : Fld := ⟨0x44, 16, 16⟩
def NP_TONE_TONE_CNT : Fld := ⟨0x44, 0, 16⟩
def NP_ISO_ISO_LOW_TH : Fld := ⟨0x48, 16, 16⟩
def NP_OVL_OVL_EVENTS : Fld := ⟨0x4c, 24, 8⟩
def NP_OVL_OVL_PERIODS : Fld := ⟨0x4c, 16, 8⟩
def NP_OVL_OVL_LEVEL : Fld := ⟨0x4c, 0, 16⟩
def NP_NR_NR_EXCESS : Fld := ⟨0x50, 16, 16⟩
def NP_NR_PL_MIN : Fld := ⟨0x50, 0, 16⟩
def NP_CMD_OP : Fld := ⟨0x54, 28, 4⟩
def NP_CMD_KIND : Fld := ⟨0x54, 26, 2⟩
def NP_CMD_LEVEL : Fld := ⟨0x54, 24, 2⟩
def NP_CMD_COND : Fld := ⟨0x54, 20, 4⟩
def NP_CMD_INDEX : Fld := ⟨0x54, 0, 10⟩
def NP_SUM_SILENT : Fld := ⟨0x58, 31, 1⟩
def NP_SUM_PORT_OFF : Fld := ⟨0x58, 16, 12⟩
def NP_SUM_ANY : Fld := ⟨0x58, 0, 10⟩
def NP_CNT0_RAISED : Fld := ⟨0x5c, 16, 16⟩
def NP_CNT0_RESTARTS : Fld := ⟨0x5c, 0, 16⟩
def NP_CNT1_LATCHES : Fld := ⟨0x60, 16, 16⟩
def NP_CNT1_FAILED : Fld := ⟨0x60, 0, 16⟩
def NP_PORT_BACKOFF_LEFT (i : Nat) : Fld := ⟨0x70 + 4 * i, 16, 16⟩
def NP_PORT_TRIES (i : Nat) : Fld := ⟨0x70 + 4 * i, 12, 4⟩
def NP_PORT_WATCH (i : Nat) : Fld := ⟨0x70 + 4 * i, 9, 1⟩
def NP_PORT_LATCHED (i : Nat) : Fld := ⟨0x70 + 4 * i, 8, 1⟩
def NP_PORT_PRESENT (i : Nat) : Fld := ⟨0x70 + 4 * i, 4, 1⟩
def NP_PORT_LEVEL (i : Nat) : Fld := ⟨0x70 + 4 * i, 0, 3⟩

end NP

namespace ESC

def ESC_CLIMB (i : Nat) : Fld := ⟨0x40 + 4 * i, 16, 16⟩
def ESC_TRIM_MAX (i : Nat) : Fld := ⟨0x40 + 4 * i, 12, 4⟩
def ESC_SELF (i : Nat) : Fld := ⟨0x40 + 4 * i, 11, 1⟩
def ESC_TOP (i : Nat) : Fld := ⟨0x40 + 4 * i, 4, 3⟩
def ESC_START (i : Nat) : Fld := ⟨0x40 + 4 * i, 0, 3⟩

end ESC

namespace NPS

def NPS_SEL_COND : Fld := ⟨0x40, 10, 4⟩
def NPS_SEL_SEG : Fld := ⟨0x40, 0, 10⟩
def NPS_CFG_EN : Fld := ⟨0x44, 16, 7⟩
def NPS_CFG_N_IDLE : Fld := ⟨0x44, 12, 4⟩
def NPS_CFG_QUIET_EN : Fld := ⟨0x44, 8, 1⟩
def NPS_CFG_QSCS : Fld := ⟨0x44, 0, 2⟩
def NPS_QCFG_IDLE_DROP : Fld := ⟨0x48, 16, 16⟩
def NPS_QCFG_ACT_TH : Fld := ⟨0x48, 0, 16⟩
def NPS_STAT_PRESENT : Fld := ⟨0x4c, 16, 10⟩
def NPS_STAT_TRIM_STEPS : Fld := ⟨0x4c, 12, 4⟩
def NPS_STAT_LATCHED_ANY : Fld := ⟨0x4c, 8, 1⟩
def NPS_STAT_LEVEL : Fld := ⟨0x4c, 4, 3⟩
def NPS_STAT_QUIET : Fld := ⟨0x4c, 0, 2⟩
def NPS_CSTAT_BACKOFF_LEFT : Fld := ⟨0x50, 16, 16⟩
def NPS_CSTAT_TRIES : Fld := ⟨0x50, 12, 4⟩
def NPS_CSTAT_WATCH : Fld := ⟨0x50, 9, 1⟩
def NPS_CSTAT_LATCHED : Fld := ⟨0x50, 8, 1⟩
def NPS_CSTAT_PRESENT : Fld := ⟨0x50, 4, 1⟩
def NPS_CSTAT_LEVEL : Fld := ⟨0x50, 0, 3⟩
def NPS_NOISE_CAP_NR : Fld := ⟨0x54, 16, 16⟩
def NPS_NOISE_CONTRIB : Fld := ⟨0x54, 0, 16⟩
def NPS_QSTAT_FLOOR : Fld := ⟨0x58, 16, 16⟩
def NPS_QSTAT_IDLE_SLOTS : Fld := ⟨0x58, 0, 8⟩
def NPS_QADV_UL_ADV : Fld := ⟨0x5c, 0, 16⟩

end NPS

namespace GRP

def GRP_SEL_GRP : Fld := ⟨0x40, 0, 10⟩
def GRP_CFG_NR_EN : Fld := ⟨0x44, 31, 1⟩
def GRP_CFG_REF_PWR : Fld := ⟨0x44, 0, 16⟩
def GRP_NR_N_BS : Fld := ⟨0x48, 16, 16⟩
def GRP_NR_NR_MARGIN : Fld := ⟨0x48, 0, 16⟩
def GRP_PL_UL_CORR : Fld := ⟨0x4c, 16, 16⟩
def GRP_PL_PL : Fld := ⟨0x4c, 0, 16⟩
def GRP_STAT_RX : Fld := ⟨0x50, 16, 16⟩
def GRP_STAT_HELD : Fld := ⟨0x50, 1, 1⟩
def GRP_STAT_VALID : Fld := ⟨0x50, 0, 1⟩

end GRP

namespace TX

def TX_CTRL_LOAD_RELEASE : Fld := ⟨0x40, 8, 1⟩
def TX_CTRL_TEST_UNMUTE : Fld := ⟨0x40, 4, 1⟩
def TX_CTRL_EN : Fld := ⟨0x40, 0, 1⟩
def TX_STAT_LOAD_TRIES : Fld := ⟨0x44, 12, 2⟩
def TX_STAT_OBS_MISMATCH : Fld := ⟨0x44, 6, 1⟩
def TX_STAT_BIAS_FAIL : Fld := ⟨0x44, 5, 1⟩
def TX_STAT_LOAD_WARN : Fld := ⟨0x44, 4, 1⟩
def TX_STAT_STATE : Fld := ⟨0x44, 0, 3⟩
def PWR_LIM_REL_RATE : Fld := ⟨0x48, 16, 16⟩
def PWR_LIM_LIMIT : Fld := ⟨0x48, 0, 16⟩
def PWR_STAT_PRE : Fld := ⟨0x4c, 16, 16⟩
def PWR_STAT_BACKOFF : Fld := ⟨0x4c, 0, 16⟩
def PWR_EFF_LIM_EFF : Fld := ⟨0x50, 16, 16⟩
def PWR_EFF_FWD : Fld := ⟨0x50, 0, 16⟩
def LOAD_CFG_RL_WARN : Fld := ⟨0x54, 16, 16⟩
def LOAD_CFG_RL_TRIP : Fld := ⟨0x54, 0, 16⟩
def LOAD_STAT_RL : Fld := ⟨0x58, 16, 16⟩
def LOAD_STAT_REFL : Fld := ⟨0x58, 0, 16⟩
def BIAS_STAT_IDQ : Fld := ⟨0x5c, 16, 16⟩
def BIAS_STAT_IDQ_TGT : Fld := ⟨0x5c, 0, 16⟩
def DPD_CFG_MODE : Fld := ⟨0x60, 16, 2⟩
def DPD_CFG_MU : Fld := ⟨0x60, 8, 3⟩
def DPD_CFG_ORDER : Fld := ⟨0x60, 4, 2⟩
def DPD_CFG_MEM : Fld := ⟨0x60, 0, 2⟩
def DPD_TIME_CAP_LEN : Fld := ⟨0x64, 16, 16⟩
def DPD_TIME_ADAPT_INT : Fld := ⟨0x64, 0, 16⟩
def DPD_STAT_NMSE : Fld := ⟨0x68, 16, 16⟩
def DPD_STAT_REVERT_RUN : Fld := ⟨0x68, 4, 2⟩
def DPD_STAT_NO_ENGINE : Fld := ⟨0x68, 2, 1⟩
def DPD_STAT_DIVERGED : Fld := ⟨0x68, 1, 1⟩
def DPD_STAT_FROZEN : Fld := ⟨0x68, 0, 1⟩
def TX_CNT_REVERTS : Fld := ⟨0x6c, 16, 16⟩
def TX_CNT_UPDATES : Fld := ⟨0x6c, 0, 16⟩
def DPD_COEF_I (i : Nat) : Fld := ⟨0x400 + 4 * i, 16, 16⟩
def DPD_COEF_Q (i : Nat) : Fld := ⟨0x400 + 4 * i, 0, 16⟩
def DPD_W_I (i : Nat) : Fld := ⟨0x600 + 4 * i, 16, 16⟩
def DPD_W_Q (i : Nat) : Fld := ⟨0x600 + 4 * i, 0, 16⟩

end TX

namespace EMK

def EM_CFG_EN : Fld := ⟨0x40, 31, 1⟩
def EM_CFG_AVG : Fld := ⟨0x40, 16, 8⟩
def EM_CFG_CNT : Fld := ⟨0x40, 12, 4⟩
def EM_LVL_TOL : Fld := ⟨0x44, 16, 16⟩
def EM_LVL_HYST : Fld := ⟨0x44, 0, 16⟩
def EM_TIME_INTERVAL : Fld := ⟨0x48, 0, 16⟩
def EM_STAT_MARGIN : Fld := ⟨0x4c, 16, 16⟩
def EM_STAT_SWEEPS : Fld := ⟨0x4c, 8, 8⟩
def EM_STAT_VCOUNT : Fld := ⟨0x4c, 4, 4⟩
def EM_STAT_UNAVAILABLE : Fld := ⟨0x4c, 2, 1⟩
def EM_STAT_VIOL : Fld := ⟨0x4c, 1, 1⟩
def EM_STAT_VALID : Fld := ⟨0x4c, 0, 1⟩
def EM_WORST_FREQ : Fld := ⟨0x50, 0, 32⟩
def EM_NPTS_NPTS : Fld := ⟨0x54, 0, 6⟩
def EMK_FREQ_FREQ (i : Nat) : Fld := ⟨0x100 + 8 * i, 0, 32⟩
def EMK_LIM_LIM (i : Nat) : Fld := ⟨0x104 + 8 * i, 0, 16⟩

end EMK

namespace EXT

def EXT_CTRL_RETRAIN : Fld := ⟨0x40, 8, 1⟩
def EXT_CTRL_RUN_EN : Fld := ⟨0x40, 1, 1⟩
def EXT_CTRL_EN : Fld := ⟨0x40, 0, 1⟩
def EXT_STAT_SF_ALIGNED : Fld := ⟨0x44, 12, 1⟩
def EXT_STAT_CTRL_FAIL : Fld := ⟨0x44, 11, 1⟩
def EXT_STAT_FIBRE_LONG : Fld := ⟨0x44, 10, 1⟩
def EXT_STAT_CAPS_REFUSED : Fld := ⟨0x44, 9, 1⟩
def EXT_STAT_CAPS_OK : Fld := ⟨0x44, 8, 1⟩
def EXT_STAT_FRAME_LOCK : Fld := ⟨0x44, 7, 1⟩
def EXT_STAT_BLOCK_LOCK : Fld := ⟨0x44, 6, 1⟩
def EXT_STAT_TX_FAULT : Fld := ⟨0x44, 5, 1⟩
def EXT_STAT_LOS : Fld := ⟨0x44, 4, 1⟩
def EXT_STAT_MOD_PRESENT : Fld := ⟨0x44, 3, 1⟩
def EXT_STAT_STATE : Fld := ⟨0x44, 0, 3⟩
def FIBRE_ONE_WAY : Fld := ⟨0x48, 0, 32⟩
def FIBRE_CFG_ASYM : Fld := ⟨0x4c, 0, 16⟩
def CAP_USE_CONT_UP : Fld := ⟨0x50, 24, 8⟩
def CAP_USE_UNITS_UP : Fld := ⟨0x50, 16, 8⟩
def CAP_USE_CONT_DN : Fld := ⟨0x50, 8, 8⟩
def CAP_USE_UNITS_DN : Fld := ⟨0x50, 0, 8⟩
def HEAD_DLY_A_H_TX : Fld := ⟨0x54, 16, 16⟩
def HEAD_DLY_A_H_RX : Fld := ⟨0x54, 0, 16⟩
def HEAD_DLY_B_H_TX : Fld := ⟨0x58, 16, 16⟩
def HEAD_DLY_B_H_RX : Fld := ⟨0x58, 0, 16⟩
def HEAD_ALM_LATCH : Fld := ⟨0x5c, 16, 16⟩
def HEAD_ALM_LIVE : Fld := ⟨0x5c, 0, 16⟩
def LINK_CNT0_BAD_ROWS : Fld := ⟨0x60, 16, 16⟩
def LINK_CNT0_MARKER_MISS : Fld := ⟨0x60, 0, 16⟩
def LINK_CNT1_CTRL_RETX : Fld := ⟨0x64, 16, 16⟩
def LINK_CNT1_HDR_CRC : Fld := ⟨0x64, 0, 16⟩
def SFP_DDM_RX_PWR : Fld := ⟨0x68, 16, 16⟩
def SFP_DDM_TX_PWR : Fld := ⟨0x68, 0, 16⟩
def CAPS_IDX_IDX : Fld := ⟨0x6c, 0, 6⟩
def CAPS_DATA_WORD : Fld := ⟨0x70, 0, 32⟩

end EXT

namespace MON

def MON_CTRL_RESTART : Fld := ⟨0x40, 1, 1⟩
def MON_CTRL_EN : Fld := ⟨0x40, 0, 1⟩
def MON_STAT_PASSES : Fld := ⟨0x44, 16, 16⟩
def MON_STAT_WAIT : Fld := ⟨0x44, 7, 1⟩
def MON_STAT_ENTRY : Fld := ⟨0x44, 0, 6⟩
def TRIG_STAT_MISSED : Fld := ⟨0x48, 16, 16⟩
def TRIG_STAT_LAST_LAG : Fld := ⟨0x48, 0, 12⟩
def RING_STAT_DROPPED : Fld := ⟨0x4c, 16, 16⟩
def RING_STAT_OVERFLOW : Fld := ⟨0x4c, 15, 1⟩
def RING_STAT_LEVEL : Fld := ⟨0x4c, 0, 11⟩
def RING_DATA_RESULT : Fld := ⟨0x50, 0, 32⟩
def MON_CNT_RECOVERIES : Fld := ⟨0x54, 16, 16⟩
def MON_CNT_OVR_EVENTS : Fld := ⟨0x54, 0, 16⟩
def REF_STAT_FAIL1 : Fld := ⟨0x58, 17, 1⟩
def REF_STAT_FAIL0 : Fld := ⟨0x58, 16, 1⟩
def CAL_CTRL_OP : Fld := ⟨0x5c, 8, 2⟩
def CAL_CTRL_CH : Fld := ⟨0x5c, 0, 1⟩
def CAL_VFS_V_CAL : Fld := ⟨0x60, 0, 16⟩
def CAL_STAT_MEAN : Fld := ⟨0x64, 16, 16⟩
def CAL_STAT_CH : Fld := ⟨0x64, 3, 1⟩
def CAL_STAT_STATE : Fld := ⟨0x64, 0, 3⟩

end MON

namespace MSEQ

def SEQ_CFG_LAST : Fld := ⟨0x40, 0, 6⟩
def SEQ_A_DELAY (i : Nat) : Fld := ⟨0x100 + 8 * i, 16, 16⟩
def SEQ_A_REPEAT (i : Nat) : Fld := ⟨0x100 + 8 * i, 8, 8⟩
def SEQ_A_CH1 (i : Nat) : Fld := ⟨0x100 + 8 * i, 4, 4⟩
def SEQ_A_CH0 (i : Nat) : Fld := ⟨0x100 + 8 * i, 0, 4⟩
def SEQ_B_TRIG (i : Nat) : Fld := ⟨0x104 + 8 * i, 8, 2⟩
def SEQ_B_STORE (i : Nat) : Fld := ⟨0x104 + 8 * i, 7, 1⟩
def SEQ_B_FMT1 (i : Nat) : Fld := ⟨0x104 + 8 * i, 3, 3⟩
def SEQ_B_FMT0 (i : Nat) : Fld := ⟨0x104 + 8 * i, 0, 3⟩

end MSEQ

namespace MRES

def RES_RESULT (i : Nat) : Fld := ⟨0x40 + 4 * i, 0, 32⟩

end MRES

namespace MCOR

def CORR_OFFSET (i : Nat) : Fld := ⟨0x40 + 4 * i, 16, 16⟩
def CORR_GAIN (i : Nat) : Fld := ⟨0x40 + 4 * i, 0, 16⟩

end MCOR

namespace PWR

def PWR_IN_VOLTAGE : Fld := ⟨0x40, 16, 16⟩
def PWR_IN_POWER : Fld := ⟨0x40, 0, 16⟩
def PWR_CAP_CAP : Fld := ⟨0x44, 0, 16⟩
def PWR_STAT_SHED : Fld := ⟨0x48, 16, 10⟩
def PWR_STAT_STEPS : Fld := ⟨0x48, 4, 3⟩
def PWR_STAT_OVER : Fld := ⟨0x48, 2, 1⟩
def PWR_STAT_ACTIVE : Fld := ⟨0x48, 0, 1⟩
def HOLD_STAT_ENERGY : Fld := ⟨0x4c, 16, 16⟩
def HOLD_STAT_WORN : Fld := ⟨0x4c, 1, 1⟩
def HOLD_STAT_CHARGED : Fld := ⟨0x4c, 0, 1⟩
def PF_STAT_LAST_LEN : Fld := ⟨0x50, 16, 16⟩
def PF_STAT_LAST_STEP : Fld := ⟨0x50, 0, 3⟩

end PWR

namespace THM

def SNS_TEMP (i : Nat) : Fld := ⟨0x40 + 4 * i, 16, 16⟩
def SNS_STEPS (i : Nat) : Fld := ⟨0x40 + 4 * i, 8, 3⟩
def SNS_MAPPED (i : Nat) : Fld := ⟨0x40 + 4 * i, 7, 1⟩
def SNS_FAILED (i : Nat) : Fld := ⟨0x40 + 4 * i, 6, 1⟩
def SNS_CLASS (i : Nat) : Fld := ⟨0x40 + 4 * i, 4, 2⟩
def SNS_TYPE (i : Nat) : Fld := ⟨0x40 + 4 * i, 2, 1⟩
def SNS_LIM_SHUT (i : Nat) : Fld := ⟨0x80 + 4 * i, 16, 16⟩
def SNS_LIM_THR (i : Nat) : Fld := ⟨0x80 + 4 * i, 0, 16⟩
def ZONE_SUB_OFFS (i : Nat) : Fld := ⟨0xc0 + 4 * i, 16, 16⟩
def ZONE_COOL_LEFT (i : Nat) : Fld := ⟨0xc0 + 4 * i, 8, 8⟩
def ZONE_SHUT (i : Nat) : Fld := ⟨0xc0 + 4 * i, 4, 1⟩
def ZONE_STEPS (i : Nat) : Fld := ⟨0xc0 + 4 * i, 0, 3⟩
def THM_STAT_SHED : Fld := ⟨0xe0, 16, 10⟩
def THM_STAT_XT_STEPS : Fld := ⟨0xe0, 0, 3⟩
def MAP_CMD_OP : Fld := ⟨0xe4, 30, 2⟩
def MAP_CMD_SENSOR : Fld := ⟨0xe4, 0, 4⟩

end THM

namespace SHED

def SHED_SEL_SEG : Fld := ⟨0x40, 0, 10⟩
def SHED_CFG_SHED : Fld := ⟨0x44, 31, 1⟩
def SHED_CFG_CAUSE : Fld := ⟨0x44, 30, 1⟩
def SHED_CFG_PRI : Fld := ⟨0x44, 0, 4⟩

end SHED

namespace HOST

def LINK_STAT_WIDTH : Fld := ⟨0x40, 8, 4⟩
def LINK_STAT_SPEED : Fld := ⟨0x40, 4, 2⟩
def LINK_STAT_EXT_TAG : Fld := ⟨0x40, 1, 1⟩
def LINK_STAT_UP : Fld := ⟨0x40, 0, 1⟩
def MASTER_READY : Fld := ⟨0x44, 1, 1⟩
def MASTER_SEL : Fld := ⟨0x44, 0, 1⟩
def AGE_LEVEL_INT : Fld := ⟨0x48, 16, 16⟩
def AGE_AGE_STEP : Fld := ⟨0x48, 0, 16⟩
def STORE_USED : Fld := ⟨0x4c, 0, 25⟩
def STORE_CNT_DROPPED : Fld := ⟨0x50, 0, 32⟩
def INFLIGHT_NP_OUT : Fld := ⟨0x54, 16, 9⟩
def INFLIGHT_DESC : Fld := ⟨0x54, 0, 12⟩
def CAP_WIN_BASE : Fld := ⟨0x58, 0, 5⟩
def STREAM_BUDGET : Fld := ⟨0x5c, 16, 16⟩
def STREAM_USED : Fld := ⟨0x5c, 0, 16⟩

end HOST

namespace RING

def RING_BASE_LO_BASE (k : Nat) : Fld := ⟨0x40 + 0x20 * k + 0x0, 0, 32⟩
def RING_BASE_HI_BASE (k : Nat) : Fld := ⟨0x40 + 0x20 * k + 0x4, 0, 32⟩
def RING_WB_LO_WB (k : Nat) : Fld := ⟨0x40 + 0x20 * k + 0x8, 0, 32⟩
def RING_WB_HI_WB (k : Nat) : Fld := ⟨0x40 + 0x20 * k + 0xc, 0, 32⟩
def RING_CFG_EN (k : Nat) : Fld := ⟨0x40 + 0x20 * k + 0x10, 31, 1⟩
def RING_CFG_IE (k : Nat) : Fld := ⟨0x40 + 0x20 * k + 0x10, 30, 1⟩
def RING_CFG_VEC (k : Nat) : Fld := ⟨0x40 + 0x20 * k + 0x10, 16, 11⟩
def RING_CFG_LOG2 (k : Nat) : Fld := ⟨0x40 + 0x20 * k + 0x10, 0, 5⟩
def RING_MOD_MOD (k : Nat) : Fld := ⟨0x40 + 0x20 * k + 0x14, 0, 16⟩
def RING_HEAD_HEAD (k : Nat) : Fld := ⟨0x40 + 0x20 * k + 0x18, 0, 32⟩
def RING_TAIL_TAIL (k : Nat) : Fld := ⟨0x40 + 0x20 * k + 0x1c, 0, 32⟩

end RING

namespace DMA

def DESC_LO_DESC_BASE (k : Nat) : Fld := ⟨0x40 + 0x40 * k + 0x0, 0, 32⟩
def DESC_HI_DESC_BASE (k : Nat) : Fld := ⟨0x40 + 0x40 * k + 0x4, 0, 32⟩
def DWB_LO_DMA_WB (k : Nat) : Fld := ⟨0x40 + 0x40 * k + 0x8, 0, 32⟩
def DWB_HI_DMA_WB (k : Nat) : Fld := ⟨0x40 + 0x40 * k + 0xc, 0, 32⟩
def DMA_CFG_EN (k : Nat) : Fld := ⟨0x40 + 0x40 * k + 0x10, 31, 1⟩
def DMA_CFG_IE (k : Nat) : Fld := ⟨0x40 + 0x40 * k + 0x10, 30, 1⟩
def DMA_CFG_VEC (k : Nat) : Fld := ⟨0x40 + 0x40 * k + 0x10, 16, 11⟩
def DMA_CFG_LOG2 (k : Nat) : Fld := ⟨0x40 + 0x40 * k + 0x10, 0, 5⟩
def DMA_PROD_PROD (k : Nat) : Fld := ⟨0x40 + 0x40 * k + 0x14, 0, 32⟩
def DMA_CONS_CONS (k : Nat) : Fld := ⟨0x40 + 0x40 * k + 0x18, 0, 32⟩
def DMA_STAT_INFLIGHT (k : Nat) : Fld := ⟨0x40 + 0x40 * k + 0x1c, 16, 12⟩
def DMA_STAT_ERR (k : Nat) : Fld := ⟨0x40 + 0x40 * k + 0x1c, 8, 4⟩
def DMA_STAT_STATE (k : Nat) : Fld := ⟨0x40 + 0x40 * k + 0x1c, 0, 3⟩
def DMA_CMD_ABORT (k : Nat) : Fld := ⟨0x40 + 0x40 * k + 0x20, 2, 1⟩
def DMA_CMD_SKIP (k : Nat) : Fld := ⟨0x40 + 0x40 * k + 0x20, 1, 1⟩
def DMA_CMD_RETRY (k : Nat) : Fld := ⟨0x40 + 0x40 * k + 0x20, 0, 1⟩

end DMA

namespace CAP

def CAP_SRC_KIND (k : Nat) : Fld := ⟨0x40 + 0x20 * k + 0x0, 28, 3⟩
def CAP_SRC_TAP (k : Nat) : Fld := ⟨0x40 + 0x20 * k + 0x0, 24, 2⟩
def CAP_SRC_BRANCH (k : Nat) : Fld := ⟨0x40 + 0x20 * k + 0x0, 20, 4⟩
def CAP_SRC_INDEX (k : Nat) : Fld := ⟨0x40 + 0x20 * k + 0x0, 0, 10⟩
def CAP_BUF_BASE (k : Nat) : Fld := ⟨0x40 + 0x20 * k + 0x4, 0, 23⟩
def CAP_LEN_SIZE (k : Nat) : Fld := ⟨0x40 + 0x20 * k + 0x8, 0, 23⟩
def CAP_CTRL_START (k : Nat) : Fld := ⟨0x40 + 0x20 * k + 0xc, 31, 1⟩
def CAP_CTRL_STOP (k : Nat) : Fld := ⟨0x40 + 0x20 * k + 0xc, 30, 1⟩
def CAP_CTRL_DMA_CH (k : Nat) : Fld := ⟨0x40 + 0x20 * k + 0xc, 16, 4⟩
def CAP_CTRL_MODE (k : Nat) : Fld := ⟨0x40 + 0x20 * k + 0xc, 0, 2⟩
def CAP_STAT_GAPS (k : Nat) : Fld := ⟨0x40 + 0x20 * k + 0x10, 16, 16⟩
def CAP_STAT_STATE (k : Nat) : Fld := ⟨0x40 + 0x20 * k + 0x10, 0, 3⟩
def CAP_POS_POS (k : Nat) : Fld := ⟨0x40 + 0x20 * k + 0x14, 0, 32⟩
def CAP_T0_LOOP (k : Nat) : Fld := ⟨0x40 + 0x20 * k + 0x18, 0, 32⟩
def CAP_T1_OFFS (k : Nat) : Fld := ⟨0x40 + 0x20 * k + 0x1c, 0, 19⟩

end CAP

namespace QB

def Q_CFG_EN (k : Nat) : Fld := ⟨0x40 + 0x100 * k + 0x0, 31, 1⟩
def Q_CFG_PRIO (k : Nat) : Fld := ⟨0x40 + 0x100 * k + 0x0, 24, 3⟩
def Q_CFG_RING (k : Nat) : Fld := ⟨0x40 + 0x100 * k + 0x0, 0, 6⟩
def Q_LIMIT_LIMIT (k : Nat) : Fld := ⟨0x40 + 0x100 * k + 0x4, 0, 24⟩
def Q_WM_LEVEL (k : Nat) : Fld := ⟨0x40 + 0x100 * k + 0x8, 0, 16⟩
def Q_STAT_ABOVE (k : Nat) : Fld := ⟨0x40 + 0x100 * k + 0xc, 31, 1⟩
def Q_STAT_WM_LATCH (k : Nat) : Fld := ⟨0x40 + 0x100 * k + 0xc, 30, 1⟩
def Q_STAT_OVERFLOW (k : Nat) : Fld := ⟨0x40 + 0x100 * k + 0xc, 29, 1⟩
def Q_STAT_EFF (k : Nat) : Fld := ⟨0x40 + 0x100 * k + 0xc, 24, 3⟩
def Q_STAT_ITEMS (k : Nat) : Fld := ⟨0x40 + 0x100 * k + 0xc, 0, 24⟩
def Q_FILL_WORDS (k : Nat) : Fld := ⟨0x40 + 0x100 * k + 0x10, 0, 24⟩
def Q_SEQ_NEXT (k : Nat) : Fld := ⟨0x40 + 0x100 * k + 0x14, 16, 16⟩
def Q_SEQ_LAST_DLV (k : Nat) : Fld := ⟨0x40 + 0x100 * k + 0x14, 0, 16⟩
def Q_CMD_FLUSH (k : Nat) : Fld := ⟨0x40 + 0x100 * k + 0x18, 0, 1⟩
def Q_CNT0_DROPPED (k : Nat) : Fld := ⟨0x40 + 0x100 * k + 0x1c, 16, 16⟩
def Q_CNT0_FLUSHED (k : Nat) : Fld := ⟨0x40 + 0x100 * k + 0x1c, 0, 16⟩
def Q_CNT1_STRAY (k : Nat) : Fld := ⟨0x40 + 0x100 * k + 0x20, 16, 16⟩
def Q_CNT1_PARTIAL (k : Nat) : Fld := ⟨0x40 + 0x100 * k + 0x20, 0, 16⟩

end QB

namespace IDENT

def PART_VENDOR : Fld := ⟨0x40, 16, 16⟩
def PART_NUMBER : Fld := ⟨0x40, 0, 16⟩
def VARIANT_GRADE : Fld := ⟨0x44, 4, 4⟩
def VARIANT_SET : Fld := ⟨0x44, 0, 4⟩
def SERIAL_LO_SERIAL : Fld := ⟨0x48, 0, 32⟩
def SERIAL_HI_SERIAL : Fld := ⟨0x4c, 0, 32⟩
def HW_REV_BOARD : Fld := ⟨0x50, 16, 16⟩
def HW_REV_SILICON : Fld := ⟨0x50, 0, 16⟩
def MAP_REV_MAP : Fld := ⟨0x54, 0, 32⟩

end IDENT

namespace MODE

def MODE_STAT_ALT : Fld := ⟨0x40, 16, 1⟩
def MODE_STAT_CAUSE : Fld := ⟨0x40, 12, 4⟩
def MODE_STAT_TEST_FROM : Fld := ⟨0x40, 8, 1⟩
def MODE_STAT_PREV : Fld := ⟨0x40, 4, 3⟩
def MODE_STAT_MODE : Fld := ⟨0x40, 0, 3⟩
def MODE_CMD_KEY : Fld := ⟨0x44, 24, 8⟩
def MODE_CMD_CMD : Fld := ⟨0x44, 0, 4⟩
def CMD_STAT_LAST_CMD : Fld := ⟨0x48, 4, 4⟩
def CMD_STAT_STATE : Fld := ⟨0x48, 0, 2⟩
def STRAP_BOOT_MODE : Fld := ⟨0x4c, 4, 2⟩
def STRAP_MASTER_SEL : Fld := ⟨0x4c, 0, 1⟩
def RST_STAT_RESTARTS : Fld := ⟨0x50, 16, 16⟩
def RST_STAT_CAUSE : Fld := ⟨0x50, 0, 4⟩
def MODE_TIME_SECONDS : Fld := ⟨0x54, 0, 32⟩

end MODE

namespace GCLK

def CLK_STAT_DDR_MTS : Fld := ⟨0x40, 16, 16⟩
def CLK_STAT_VILSON : Fld := ⟨0x40, 4, 1⟩
def CLK_STAT_CORE : Fld := ⟨0x40, 3, 1⟩
def CLK_STAT_BWIN : Fld := ⟨0x40, 2, 1⟩
def CLK_STAT_CONV : Fld := ⟨0x40, 1, 1⟩
def CLK_STAT_SYNTH : Fld := ⟨0x40, 0, 1⟩
def CLK_CNT_UNLOCKS : Fld := ⟨0x44, 0, 16⟩

end GCLK

namespace IRQ

def SUM_TOP_GROUPS : Fld := ⟨0x40, 0, 32⟩
def SUM_SEL_GRP : Fld := ⟨0x44, 0, 5⟩
def ERR_FIRST_VALID : Fld := ⟨0x48, 31, 1⟩
def ERR_FIRST_PAGE : Fld := ⟨0x48, 0, 14⟩
def ERR_CNT_COUNT : Fld := ⟨0x4c, 0, 32⟩
def SUM_DATA_PAGES (i : Nat) : Fld := ⟨0x80 + 4 * i, 0, 32⟩
def ROUTE_A_EN (i : Nat) : Fld := ⟨0x100 + 8 * i, 31, 1⟩
def ROUTE_A_LAST (i : Nat) : Fld := ⟨0x100 + 8 * i, 16, 14⟩
def ROUTE_A_FIRST (i : Nat) : Fld := ⟨0x100 + 8 * i, 0, 14⟩
def ROUTE_B_SHIFT (i : Nat) : Fld := ⟨0x104 + 8 * i, 28, 4⟩
def ROUTE_B_VEC (i : Nat) : Fld := ⟨0x104 + 8 * i, 0, 11⟩

end IRQ

namespace WVL

def WVL_STAT_RUNNING : Fld := ⟨0x40, 16, 5⟩
def WVL_STAT_WORKLOAD : Fld := ⟨0x40, 8, 3⟩
def WVL_STAT_SUBST : Fld := ⟨0x40, 3, 1⟩
def WVL_STAT_SHARED : Fld := ⟨0x40, 2, 1⟩
def WVL_STAT_ISOLATED : Fld := ⟨0x40, 1, 1⟩
def WVL_STAT_LOADED : Fld := ⟨0x40, 0, 1⟩
def WVL_SUBST_FOR : Fld := ⟨0x44, 0, 5⟩
def WVL_LOAD_SHARED_KIB : Fld := ⟨0x48, 16, 16⟩
def WVL_LOAD_BUSY : Fld := ⟨0x48, 0, 16⟩

end WVL

namespace FLT

def FLT_CFG_FORCE_REACT : Fld := ⟨0x40, 0, 1⟩
def FLT_FIRST_VALID : Fld := ⟨0x44, 31, 1⟩
def FLT_FIRST_OVERFLOW : Fld := ⟨0x44, 30, 1⟩
def FLT_FIRST_REAL : Fld := ⟨0x44, 29, 1⟩
def FLT_FIRST_FORCED : Fld := ⟨0x44, 28, 1⟩
def FLT_FIRST_CLASS : Fld := ⟨0x44, 24, 2⟩
def FLT_FIRST_SOURCE : Fld := ⟨0x44, 0, 8⟩
def FLT_FIRST_T_STAMP : Fld := ⟨0x48, 0, 32⟩
def FLT_FIRST_C_OVF_CNT : Fld := ⟨0x4c, 16, 16⟩
def FLT_FIRST_C_CYCLE : Fld := ⟨0x4c, 0, 16⟩
def FLT_STAT_ISOLATED : Fld := ⟨0x50, 1, 1⟩
def FLT_STAT_SILENT : Fld := ⟨0x50, 0, 1⟩
def FLT_STICKY_STICKY (i : Nat) : Fld := ⟨0x60 + 4 * i, 0, 32⟩
def FLT_LIVE_LIVE (i : Nat) : Fld := ⟨0x80 + 4 * i, 0, 32⟩

end FLT

namespace FSRC

def SRC_SEL_SOURCE : Fld := ⟨0x40, 0, 8⟩
def SRC_INFO_CLASS : Fld := ⟨0x44, 30, 2⟩
def SRC_INFO_PAGE : Fld := ⟨0x44, 16, 14⟩
def SRC_INFO_BIT : Fld := ⟨0x44, 8, 5⟩
def SRC_INFO_IMPL : Fld := ⟨0x44, 0, 1⟩
def SRC_CNT_EVENTS : Fld := ⟨0x48, 16, 16⟩
def SRC_CNT_FORCED : Fld := ⟨0x48, 0, 16⟩
def SRC_LAST_STAMP : Fld := ⟨0x4c, 0, 32⟩

end FSRC

namespace TAL

def TAL_CTRL_FLUSH : Fld := ⟨0x40, 0, 1⟩
def TAL_STAT_FLUSHING : Fld := ⟨0x44, 11, 1⟩
def TAL_STAT_FIRST_FULL : Fld := ⟨0x44, 10, 1⟩
def TAL_STAT_STAGED : Fld := ⟨0x44, 0, 10⟩
def TAL_SEQ_LO_NEXT : Fld := ⟨0x48, 0, 32⟩
def TAL_SEQ_HI_NEXT : Fld := ⟨0x4c, 0, 16⟩
def TAL_CNT_DROPPED : Fld := ⟨0x50, 16, 16⟩
def TAL_CNT_TORN : Fld := ⟨0x50, 0, 16⟩
def TAL_OPS_OP_SEC : Fld := ⟨0x54, 0, 32⟩
def TAL_PCYC_PCYC : Fld := ⟨0x58, 0, 24⟩
def WALL_LO_WALL : Fld := ⟨0x5c, 0, 32⟩
def WALL_HI_WALL : Fld := ⟨0x60, 0, 32⟩
def CLR_CTRL_GO : Fld := ⟨0x64, 31, 1⟩
def CLR_CTRL_AREAS : Fld := ⟨0x64, 0, 2⟩
def CLR_STAT_CLEAR_CNT : Fld := ⟨0x68, 16, 16⟩
def CLR_STAT_ANNEX_USED : Fld := ⟨0x68, 3, 9⟩
def CLR_STAT_STATE : Fld := ⟨0x68, 0, 3⟩
def AREA_FIRST_COUNT : Fld := ⟨0x6c, 0, 13⟩
def AREA_LAST_COUNT : Fld := ⟨0x70, 0, 19⟩

end TAL

namespace SNAP

def SNAP_SEL_LIST : Fld := ⟨0x40, 0, 6⟩
def SNAP_MATCH_MATCH : Fld := ⟨0x44, 16, 16⟩
def SNAP_MATCH_CODE_MASK : Fld := ⟨0x44, 0, 16⟩
def SNAP_SRC_SRC : Fld := ⟨0x48, 16, 16⟩
def SNAP_SRC_SRC_MASK : Fld := ⟨0x48, 0, 16⟩
def SNAP_CFG_EN : Fld := ⟨0x4c, 31, 1⟩
def SNAP_CFG_COUNT : Fld := ⟨0x4c, 0, 4⟩
def SNAP_ENT_REL (i : Nat) : Fld := ⟨0x50 + 4 * i, 31, 1⟩
def SNAP_ENT_PAGE (i : Nat) : Fld := ⟨0x50 + 4 * i, 16, 14⟩
def SNAP_ENT_OFFSET (i : Nat) : Fld := ⟨0x50 + 4 * i, 0, 12⟩

end SNAP

namespace TRD

def RD_CTRL_GO : Fld := ⟨0x40, 31, 1⟩
def RD_CTRL_MODE : Fld := ⟨0x40, 28, 2⟩
def RD_CTRL_IDX : Fld := ⟨0x40, 0, 19⟩
def RD_SEQ_LO_RD_SEQ : Fld := ⟨0x44, 0, 32⟩
def RD_SEQ_HI_RD_SEQ : Fld := ⟨0x48, 0, 16⟩
def RD_STAT_CRC_OK : Fld := ⟨0x4c, 2, 1⟩
def RD_STAT_STATE : Fld := ⟨0x4c, 0, 2⟩
def EXP_SEQ_LO_EXP_SEQ : Fld := ⟨0x50, 0, 32⟩
def EXP_SEQ_HI_EXP_SEQ : Fld := ⟨0x54, 0, 16⟩
def EXP_CNT_COUNT : Fld := ⟨0x58, 0, 19⟩
def EXP_DEST_DEST : Fld := ⟨0x5c, 0, 23⟩
def EXP_CTRL_GO : Fld := ⟨0x60, 31, 1⟩
def EXP_CTRL_ANNEX : Fld := ⟨0x60, 0, 1⟩
def EXP_STAT_WRITTEN : Fld := ⟨0x64, 12, 20⟩
def EXP_STAT_STATE : Fld := ⟨0x64, 0, 2⟩
def RD_DATA_DWORD (i : Nat) : Fld := ⟨0x80 + 4 * i, 0, 32⟩

end TRD

namespace GRN

def GRN_STAT_PARKED : Fld := ⟨0x40, 16, 1⟩
def GRN_STAT_WEAR_LEFT : Fld := ⟨0x40, 0, 16⟩
def GRN_WEAR_TH : Fld := ⟨0x44, 0, 16⟩
def GRN_CNT_UE_READS : Fld := ⟨0x48, 16, 16⟩
def GRN_CNT_CE_READS : Fld := ⟨0x48, 0, 16⟩

end GRN

namespace BOOT

def BOOT_STAT_FAILS : Fld := ⟨0x40, 24, 4⟩
def BOOT_STAT_ALT : Fld := ⟨0x40, 16, 6⟩
def BOOT_STAT_STEP : Fld := ⟨0x40, 12, 4⟩
def BOOT_STAT_WAIT_MASTER : Fld := ⟨0x40, 8, 1⟩
def BOOT_STAT_LAST_FAIL : Fld := ⟨0x40, 4, 4⟩
def BOOT_STAT_SAME_CNT : Fld := ⟨0x40, 0, 4⟩
def BOOT_CFG_SURVEY_TIME : Fld := ⟨0x44, 16, 16⟩
def BOOT_CFG_AIR_TIME : Fld := ⟨0x44, 8, 8⟩
def BOOT_CFG_RAMP_TIME : Fld := ⟨0x44, 0, 8⟩
def BOOT_CTRL_FT_RUN : Fld := ⟨0x48, 1, 1⟩
def BOOT_CTRL_CLR_ALT : Fld := ⟨0x48, 0, 1⟩
def BOOT_PEND_FT_BUSY : Fld := ⟨0x4c, 1, 1⟩
def BOOT_PEND_CLR_ALT : Fld := ⟨0x4c, 0, 1⟩
def BJ_SEL_IDX : Fld := ⟨0x50, 0, 5⟩
def BJ_DATA0_DWORD : Fld := ⟨0x54, 0, 32⟩
def BJ_DATA1_DWORD : Fld := ⟨0x58, 0, 32⟩
def BJ_DATA2_DWORD : Fld := ⟨0x5c, 0, 32⟩
def BJ_DATA3_DWORD : Fld := ⟨0x60, 0, 32⟩
def STEP_TIME_MS (i : Nat) : Fld := ⟨0x84 + 4 * i, 0, 32⟩

end BOOT

namespace IMG

def IMG_STAT_A_VERSION : Fld := ⟨0x40, 16, 16⟩
def IMG_STAT_A_BAD : Fld := ⟨0x40, 3, 1⟩
def IMG_STAT_A_VALID : Fld := ⟨0x40, 2, 1⟩
def IMG_STAT_A_RUNNING : Fld := ⟨0x40, 1, 1⟩
def IMG_STAT_A_PREF : Fld := ⟨0x40, 0, 1⟩
def IMG_STAT_B_VERSION : Fld := ⟨0x44, 16, 16⟩
def IMG_STAT_B_BAD : Fld := ⟨0x44, 3, 1⟩
def IMG_STAT_B_VALID : Fld := ⟨0x44, 2, 1⟩
def IMG_STAT_B_RUNNING : Fld := ⟨0x44, 1, 1⟩
def IMG_STAT_B_PREF : Fld := ⟨0x44, 0, 1⟩
def IMG_SVN_SVN_B : Fld := ⟨0x48, 16, 16⟩
def IMG_SVN_SVN_A : Fld := ⟨0x48, 0, 16⟩
def IMG_SRC_SRC : Fld := ⟨0x4c, 0, 23⟩
def IMG_LEN_LEN : Fld := ⟨0x50, 0, 32⟩
def IMG_CTRL_GO : Fld := ⟨0x54, 31, 1⟩
def IMG_CTRL_MAKE_PREF : Fld := ⟨0x54, 1, 1⟩
def IMG_CTRL_SLOT : Fld := ⟨0x54, 0, 1⟩
def IMG_RES_STATE : Fld := ⟨0x58, 0, 4⟩
def MIN_SVN_SVN : Fld := ⟨0x5c, 0, 16⟩

end IMG

namespace TRUST

def TRUST_STAT_KEYS : Fld := ⟨0x40, 8, 8⟩
def TRUST_STAT_FIRST_OK : Fld := ⟨0x40, 0, 1⟩
def TOK_SRC_SRC : Fld := ⟨0x44, 0, 23⟩
def TOK_LEN_LEN : Fld := ⟨0x48, 0, 14⟩
def TOK_CTRL_GO : Fld := ⟨0x4c, 31, 1⟩
def TOK_STAT_TTL : Fld := ⟨0x50, 16, 16⟩
def TOK_STAT_ACTION : Fld := ⟨0x50, 8, 8⟩
def TOK_STAT_STATE : Fld := ⟨0x50, 0, 4⟩
def TOKEN_CNT_COUNT : Fld := ⟨0x54, 0, 32⟩
def TRUST_CTRL_ENROLL_FIRST : Fld := ⟨0x58, 0, 1⟩
def ATT_CTRL_GO : Fld := ⟨0x5c, 31, 1⟩
def ATT_DEST_DEST : Fld := ⟨0x60, 0, 23⟩
def ATT_STAT_STATE : Fld := ⟨0x64, 0, 3⟩
def ATT_NEXT_NEXT : Fld := ⟨0x68, 0, 21⟩
def ATT_RES_RES : Fld := ⟨0x6c, 0, 21⟩
def ATT_NONCE_NONCE (i : Nat) : Fld := ⟨0x80 + 4 * i, 0, 32⟩
def KEY_SEL_KEY : Fld := ⟨0xa0, 0, 4⟩
def KEY_DATA_BYTES (i : Nat) : Fld := ⟨0xc0 + 4 * i, 0, 32⟩

end TRUST

namespace PROV

def PROV_CTRL_FORCE_GO : Fld := ⟨0x40, 1, 1⟩
def PROV_CTRL_STOP_ALL : Fld := ⟨0x40, 0, 1⟩
def LB_EXT_LB : Fld := ⟨0x44, 0, 8⟩
def FRC_MASK_MASK (i : Nat) : Fld := ⟨0x60 + 4 * i, 0, 32⟩

end PROV

namespace INJ

def INJ_TGT_ARM (k : Nat) : Fld := ⟨0x80 + 0x20 * k + 0x0, 31, 1⟩
def INJ_TGT_KIND (k : Nat) : Fld := ⟨0x80 + 0x20 * k + 0x0, 28, 3⟩
def INJ_TGT_ACTION (k : Nat) : Fld := ⟨0x80 + 0x20 * k + 0x0, 26, 2⟩
def INJ_TGT_DIR (k : Nat) : Fld := ⟨0x80 + 0x20 * k + 0x0, 25, 1⟩
def INJ_TGT_INDEX (k : Nat) : Fld := ⟨0x80 + 0x20 * k + 0x0, 0, 16⟩
def INJ_SEL_MODE (k : Nat) : Fld := ⟨0x80 + 0x20 * k + 0x4, 30, 2⟩
def INJ_SEL_POS (k : Nat) : Fld := ⟨0x80 + 0x20 * k + 0x4, 16, 8⟩
def INJ_SEL_RATE (k : Nat) : Fld := ⟨0x80 + 0x20 * k + 0x4, 0, 16⟩
def INJ_POS_AFTER (k : Nat) : Fld := ⟨0x80 + 0x20 * k + 0x8, 16, 16⟩
def INJ_POS_COUNT (k : Nat) : Fld := ⟨0x80 + 0x20 * k + 0x8, 0, 16⟩
def INJ_SPC_EVERY (k : Nat) : Fld := ⟨0x80 + 0x20 * k + 0xc, 16, 16⟩
def INJ_SPC_SEED (k : Nat) : Fld := ⟨0x80 + 0x20 * k + 0xc, 0, 16⟩
def INJ_MASK_MASK (k : Nat) : Fld := ⟨0x80 + 0x20 * k + 0x10, 0, 32⟩
def INJ_HITS_HITS (k : Nat) : Fld := ⟨0x80 + 0x20 * k + 0x14, 0, 32⟩
def INJ_SEEN_SEEN (k : Nat) : Fld := ⟨0x80 + 0x20 * k + 0x18, 0, 32⟩
def INJ_STAT_LAST (k : Nat) : Fld := ⟨0x80 + 0x20 * k + 0x1c, 16, 16⟩
def INJ_STAT_HELD (k : Nat) : Fld := ⟨0x80 + 0x20 * k + 0x1c, 3, 1⟩
def INJ_STAT_STATE (k : Nat) : Fld := ⟨0x80 + 0x20 * k + 0x1c, 0, 3⟩

end INJ

/-- One register of a page kind, or an array of them: where it lies, which bits are of which access code
(Table 0.6), which bits the Granary keeps ("from Granary"), and the reset word. -/
structure RegRow where
  off : Nat
  stride : Nat
  count : Nat
  rw : Nat
  rws : Nat
  w1c : Nat
  w1s : Nat
  wo : Nat
  rc : Nat
  ro : Nat
  gran : Nat
  rst : Nat
deriving DecidableEq, Repr

/-- The registers of `PORT`. -/
def rowsPORT : List RegRow :=
  [⟨0x40, 4, 1, 0x0, 0x0, 0x0, 0x0, 0x0, 0x0, 0xff0f, 0x0, 0x0⟩,
   ⟨0x44, 4, 1, 0x0, 0xff, 0x0, 0x0, 0x0, 0x0, 0x0, 0x0, 0x0⟩,
   ⟨0x48, 4, 1, 0x0, 0x0, 0x0, 0x0, 0x0, 0x0, 0xffff, 0x0, 0x0⟩,
   ⟨0x4c, 4, 1, 0x3c00, 0xff, 0x0, 0x0, 0x0, 0x0, 0x0, 0x0, 0x0⟩,
   ⟨0x50, 4, 1, 0x0, 0x0, 0x0, 0x0, 0x0, 0x0, 0xf, 0x0, 0x3⟩,
   ⟨0x54, 4, 2, 0x0, 0xffffffff, 0x0, 0x0, 0x0, 0x0, 0x0, 0x0, 0x0⟩]

/-- The registers of `DCF`. -/
def rowsDCF : List RegRow :=
  [⟨0x40, 4, 1, 0x31, 0x0, 0x0, 0x0, 0x100, 0x0, 0x0, 0x31, 0x0⟩,
   ⟨0x44, 4, 1, 0x7f, 0x0, 0x0, 0x0, 0x0, 0x0, 0x0, 0x7f, 0x5⟩,
   ⟨0x48, 4, 1, 0x7f, 0x0, 0x0, 0x0, 0x0, 0x0, 0x0, 0x7f, 0x2⟩,
   ⟨0x4c, 4, 1, 0x0, 0x0, 0x0, 0x0, 0x0, 0x0, 0xb307, 0x307, 0x0⟩,
   ⟨0x50, 4, 1, 0x0, 0x0, 0x0, 0x0, 0x0, 0x0, 0xffffffff, 0x0, 0x0⟩,
   ⟨0x54, 4, 1, 0x0, 0x0, 0x0, 0x0, 0x0, 0xffffffff, 0x0, 0x0, 0x0⟩]

/-- The registers of `CONV`. -/
def rowsCONV : List RegRow :=
  [⟨0x40, 4, 1, 0x0, 0x0, 0x0, 0x0, 0x0, 0x0, 0xff00f3, 0x0, 0x100000⟩,
   ⟨0x44, 4, 1, 0x13, 0x0, 0x0, 0x0, 0x100, 0x0, 0x0, 0x0, 0x10⟩,
   ⟨0x48, 4, 1, 0x0, 0x0, 0x0, 0x0, 0x0, 0x0, 0xffff0f07, 0x0, 0x0⟩,
   ⟨0x4c, 4, 1, 0x0, 0x0, 0x0, 0x0, 0x0, 0x0, 0xffffffff, 0x0, 0x0⟩,
   ⟨0x50, 4, 1, 0x0, 0x0, 0x0, 0x0, 0x0, 0x0, 0xffffffff, 0x0, 0x80008000⟩,
   ⟨0x54, 4, 1, 0x0, 0x0, 0x0, 0x0, 0x0, 0xffffffff, 0x0, 0x0, 0x0⟩]

/-- The registers of `CGLB`. -/
def rowsCGLB : List RegRow :=
  [⟨0x40, 4, 1, 0x0, 0x0, 0x0, 0x0, 0x3, 0x0, 0x0, 0x0, 0x0⟩,
   ⟨0x44, 4, 1, 0x0, 0x0, 0x0, 0x0, 0x0, 0x0, 0x3fff, 0x0, 0x0⟩,
   ⟨0x48, 4, 1, 0x0, 0x0, 0x0, 0x0, 0x0, 0x0, 0xffffffff, 0x0, 0x0⟩]

/-- The registers of `SEG`. -/
def rowsSEG : List RegRow :=
  [⟨0x40, 4, 1, 0x0, 0xcf1f03ff, 0x0, 0x0, 0x0, 0x0, 0x0, 0x0, 0x10000⟩,
   ⟨0x44, 4, 1, 0x0, 0xffffffff, 0x0, 0x0, 0x0, 0x0, 0x0, 0x0, 0x0⟩,
   ⟨0x48, 4, 1, 0x0, 0xffffffff, 0x0, 0x0, 0x0, 0x0, 0x0, 0x0, 0x30d40⟩,
   ⟨0x4c, 4, 1, 0x0, 0xfff000f, 0x0, 0x0, 0x0, 0x0, 0x0, 0x0, 0x0⟩,
   ⟨0x50, 4, 1, 0x0, 0xff, 0x0, 0x0, 0x0, 0x0, 0x0, 0x0, 0x1⟩,
   ⟨0x100, 4, 128, 0x0, 0x3ffff, 0x0, 0x0, 0x0, 0x0, 0x0, 0x0, 0x0⟩,
   ⟨0x54, 4, 1, 0x0, 0x7ffffff, 0x0, 0x0, 0x0, 0x0, 0x0, 0x0, 0x0⟩,
   ⟨0x58, 4, 1, 0x0, 0x0, 0x0, 0x0, 0x1, 0x0, 0x0, 0x0, 0x0⟩,
   ⟨0x5c, 4, 1, 0x0, 0x0, 0x2, 0x0, 0x0, 0x0, 0x5, 0x0, 0x0⟩,
   ⟨0x60, 4, 1, 0x0, 0x0, 0x0, 0x0, 0x1, 0x0, 0x0, 0x0, 0x0⟩,
   ⟨0x64, 4, 1, 0x0, 0x0, 0x0, 0x0, 0x0, 0x0, 0xffff0f17, 0x0, 0x0⟩,
   ⟨0x68, 4, 1, 0x0, 0x0, 0x0, 0x0, 0x0, 0x0, 0xffff, 0x0, 0x0⟩,
   ⟨0x6c, 4, 1, 0x10f13, 0x0, 0x0, 0x0, 0x0, 0x0, 0x0, 0x0, 0x601⟩,
   ⟨0x70, 4, 1, 0x0, 0x0, 0x0, 0x0, 0x0, 0x0, 0xffffffff, 0x0, 0x0⟩,
   ⟨0x74, 4, 1, 0x0, 0x0, 0x0, 0x0, 0x0, 0x0, 0x1d, 0x0, 0x0⟩,
   ⟨0x78, 4, 1, 0xffffffff, 0x0, 0x0, 0x0, 0x0, 0x0, 0x0, 0x0, 0x0⟩,
   ⟨0x7c, 4, 1, 0x0, 0x0, 0x0, 0x0, 0x0, 0x0, 0xffffffff, 0x0, 0x80000000⟩,
   ⟨0x80, 4, 1, 0x0, 0x0, 0x0, 0x0, 0x0, 0x0, 0xffffffff, 0x0, 0x80008000⟩,
   ⟨0x84, 4, 1, 0x0, 0x0, 0x0, 0x0, 0x0, 0x0, 0xffff0003, 0x0, 0x80000000⟩,
   ⟨0x88, 4, 1, 0x0, 0x0, 0x0, 0x0, 0x0, 0xffffffff, 0x0, 0x0, 0x0⟩,
   ⟨0x8c, 4, 1, 0x0, 0x0, 0x0, 0x0, 0x0, 0xffffffff, 0x0, 0x0, 0x0⟩,
   ⟨0x90, 4, 1, 0x0, 0x0, 0x0, 0x0, 0x0, 0xffffffff, 0x0, 0x0, 0x0⟩,
   ⟨0x94, 4, 1, 0x0, 0x0, 0x0, 0x0, 0x0, 0xffffffff, 0x0, 0x0, 0x0⟩,
   ⟨0x98, 4, 1, 0x0, 0x0, 0x0, 0x0, 0x0, 0xffffffff, 0x0, 0x0, 0x0⟩,
   ⟨0x9c, 4, 1, 0x0, 0x0, 0x0, 0x0, 0x0, 0xffffffff, 0x0, 0x0, 0x0⟩,
   ⟨0x800, 4, 1, 0x0, 0x3f17, 0x0, 0x0, 0x0, 0x0, 0x0, 0x0, 0x4⟩,
   ⟨0x804, 4, 1, 0xffff, 0x0, 0x0, 0x0, 0x0, 0x0, 0x0, 0x0, 0x190⟩,
   ⟨0x808, 4, 1, 0x0, 0x0, 0x0, 0x0, 0x0, 0x0, 0xffff000f, 0x0, 0x80000000⟩,
   ⟨0x850, 4, 1, 0x0, 0xffff, 0x0, 0x0, 0x0, 0x0, 0x0, 0x0, 0x0⟩,
   ⟨0x900, 4, 32, 0x0, 0xffffc7ff, 0x0, 0x0, 0x0, 0x0, 0x0, 0x0, 0x0⟩,
   ⟨0x80c, 4, 1, 0xffffffff, 0x0, 0x0, 0x0, 0x0, 0x0, 0x0, 0x0, 0x12c003c⟩,
   ⟨0x810, 4, 1, 0xffffffff, 0x0, 0x0, 0x0, 0x0, 0x0, 0x0, 0x0, 0x6401f4⟩,
   ⟨0x814, 4, 1, 0xffffffff, 0x0, 0x0, 0x0, 0x0, 0x0, 0x0, 0x0, 0x4b001f4⟩,
   ⟨0x818, 4, 1, 0x7ff, 0x0, 0x0, 0x0, 0x0, 0x0, 0x0, 0x0, 0x40⟩,
   ⟨0x81c, 4, 1, 0x0, 0x0, 0x0, 0x0, 0x0, 0x0, 0xffffff1b, 0x0, 0x0⟩,
   ⟨0x820, 4, 1, 0x0, 0x0, 0x0, 0x0, 0x0, 0x0, 0xffffffff, 0x0, 0xaf00000⟩,
   ⟨0x824, 4, 1, 0x0, 0x0, 0x0, 0x0, 0x0, 0x0, 0xffffffff, 0x0, 0x8000ffff⟩,
   ⟨0x838, 4, 1, 0x0, 0x0, 0x0, 0x0, 0x0, 0x0, 0xffff0007, 0x0, 0x4⟩,
   ⟨0x880, 4, 12, 0x0, 0x0, 0x0, 0x0, 0x0, 0x0, 0xffff0003, 0x0, 0x0⟩,
   ⟨0x828, 4, 1, 0x0, 0x1f0713, 0x0, 0x0, 0x0, 0x0, 0x0, 0x0, 0x111⟩,
   ⟨0x82c, 4, 1, 0x0, 0xffffffff, 0x0, 0x0, 0x0, 0x0, 0x0, 0x0, 0x1000000⟩,
   ⟨0x830, 4, 1, 0x0, 0x0, 0x0, 0x0, 0x0, 0x0, 0xffffffff, 0x0, 0x8000⟩,
   ⟨0x834, 4, 1, 0x0, 0x0, 0x0, 0x0, 0x0, 0x0, 0xffff001f, 0x0, 0x0⟩,
   ⟨0x83c, 4, 1, 0x0, 0x0, 0x0, 0x0, 0x0, 0xffffffff, 0x0, 0x0, 0x0⟩,
   ⟨0xa00, 4, 128, 0x0, 0xffffffff, 0x0, 0x0, 0x0, 0x0, 0x0, 0x0, 0x0⟩,
   ⟨0xc00, 4, 128, 0x0, 0x0, 0x0, 0x0, 0x0, 0x0, 0xffffffff, 0x0, 0x0⟩,
   ⟨0x840, 4, 1, 0xf0f, 0x0, 0x0, 0x0, 0x0, 0x0, 0x0, 0x0, 0x0⟩,
   ⟨0x844, 4, 1, 0x1ff, 0x0, 0x0, 0x0, 0x0, 0x0, 0x0, 0x0, 0x0⟩,
   ⟨0x848, 4, 1, 0x0, 0x0, 0x0, 0x0, 0x0, 0x0, 0xffffffff, 0x0, 0x0⟩,
   ⟨0x84c, 4, 1, 0x0, 0x0, 0x0, 0x0, 0x0, 0x0, 0xffffffff, 0x0, 0x0⟩]

/-- The registers of `BWIN`. -/
def rowsBWIN : List RegRow :=
  [⟨0x40, 4, 1, 0x1, 0x0, 0x0, 0x0, 0x0, 0x0, 0x0, 0x0, 0x1⟩,
   ⟨0x44, 4, 1, 0xffff, 0x0, 0x0, 0x0, 0x0, 0x0, 0x0, 0x0, 0xff10⟩,
   ⟨0x48, 4, 1, 0x0, 0x0, 0x0, 0x0, 0x0, 0xffffffff, 0x0, 0x0, 0x0⟩,
   ⟨0x4c, 4, 1, 0x0, 0x0, 0x0, 0x0, 0x0, 0x0, 0xffffffff, 0x0, 0x80008000⟩]

/-- The registers of `AIR`. -/
def rowsAIR : List RegRow :=
  [⟨0x40, 4, 1, 0x0, 0xb13103ff, 0x0, 0x0, 0x0, 0x0, 0x0, 0x0, 0x20100000⟩,
   ⟨0x44, 4, 1, 0x0, 0xffffffff, 0x0, 0x0, 0x0, 0x0, 0x0, 0x0, 0x0⟩,
   ⟨0x48, 4, 1, 0x0, 0x0, 0x0, 0x0, 0x0, 0x0, 0xff3ff037, 0x0, 0x0⟩,
   ⟨0x4c, 4, 1, 0x0, 0x0, 0x0, 0x0, 0x0, 0x0, 0xffff03ff, 0x0, 0x0⟩,
   ⟨0x50, 4, 1, 0x0, 0x0, 0x0, 0x0, 0x0, 0x0, 0x7ffff, 0x0, 0x0⟩,
   ⟨0x54, 4, 1, 0x0, 0x0, 0x0, 0x0, 0x0, 0x0, 0x3fffff, 0x0, 0x0⟩,
   ⟨0x58, 4, 1, 0x0, 0x0, 0x0, 0x0, 0x0, 0x0, 0xffffffff, 0x0, 0x80000000⟩,
   ⟨0x5c, 4, 1, 0x0, 0x0, 0x0, 0x0, 0x0, 0x0, 0xffffffff, 0x0, 0x0⟩,
   ⟨0x60, 4, 1, 0x0, 0x0, 0x0, 0x0, 0x0, 0x0, 0xffff03ff, 0x0, 0x0⟩,
   ⟨0x64, 4, 1, 0x0, 0x0, 0x0, 0x0, 0x0, 0xffffffff, 0x0, 0x0, 0x0⟩,
   ⟨0xd0, 4, 1, 0x3, 0x0, 0x0, 0x0, 0x0, 0x0, 0x0, 0x0, 0x0⟩,
   ⟨0xd4, 4, 1, 0x0, 0x0, 0x0, 0x0, 0x0, 0x0, 0xffff001b, 0x0, 0x2⟩,
   ⟨0xd8, 4, 1, 0x0, 0x0, 0x0, 0x0, 0x0, 0x0, 0xffff, 0x0, 0x0⟩,
   ⟨0xdc, 4, 1, 0x0, 0x0, 0x0, 0x0, 0x0, 0x0, 0xffffffff, 0x0, 0x0⟩,
   ⟨0xe0, 4, 1, 0x0, 0x0, 0x0, 0x0, 0x0, 0x0, 0xffffffff, 0x0, 0x0⟩,
   ⟨0x800, 8, 256, 0x0, 0xcf07ffff, 0x0, 0x0, 0x0, 0x0, 0x0, 0x0, 0x0⟩,
   ⟨0x804, 8, 256, 0x0, 0xffffffff, 0x0, 0x0, 0x0, 0x0, 0x0, 0x0, 0x0⟩]

/-- The registers of `PAT`. -/
def rowsPAT : List RegRow :=
  [⟨0x80, 4, 1, 0x3ff, 0x0, 0x0, 0x0, 0x0, 0x0, 0x0, 0x0, 0x0⟩,
   ⟨0x84, 4, 1, 0x0, 0xffff1f03, 0x0, 0x0, 0x0, 0x0, 0x0, 0x0, 0x0⟩,
   ⟨0x88, 4, 16, 0x0, 0x307ff, 0x0, 0x0, 0x0, 0x0, 0x0, 0x0, 0x0⟩,
   ⟨0xc8, 4, 1, 0x0, 0x0, 0x0, 0x0, 0x0, 0x0, 0xffff0003, 0x0, 0x0⟩]

/-- The registers of `LOOP`. -/
def rowsLOOP : List RegRow :=
  [⟨0x40, 4, 1, 0x13, 0x700, 0x0, 0x0, 0x0, 0x0, 0x0, 0x0, 0x13⟩,
   ⟨0x44, 4, 1, 0xffff, 0x0, 0x0, 0x0, 0x0, 0x0, 0x0, 0x0, 0x0⟩,
   ⟨0x48, 4, 1, 0x0, 0xffffffff, 0x0, 0x0, 0x0, 0x0, 0x0, 0x0, 0x25800c8⟩,
   ⟨0x4c, 4, 1, 0x0, 0xffff03ff, 0x0, 0x0, 0x0, 0x0, 0x0, 0x0, 0x0⟩,
   ⟨0x50, 4, 1, 0xffff, 0x0, 0x0, 0x0, 0x0, 0x0, 0x0, 0x0, 0x2⟩,
   ⟨0x54, 4, 1, 0xffff, 0x0, 0x0, 0x0, 0x0, 0x0, 0x0, 0x0, 0x0⟩,
   ⟨0x58, 4, 1, 0xffffffff, 0x0, 0x0, 0x0, 0x0, 0x0, 0x0, 0x0, 0x8980000⟩,
   ⟨0x5c, 4, 1, 0x0, 0xffffffff, 0x0, 0x0, 0x0, 0x0, 0x0, 0x0, 0x140000⟩,
   ⟨0x60, 4, 1, 0x0, 0xffffffff, 0x0, 0x0, 0x0, 0x0, 0x0, 0x0, 0xf8f8fa88⟩,
   ⟨0x64, 4, 1, 0x0, 0xffffffff, 0x0, 0x0, 0x0, 0x0, 0x0, 0x0, 0xfc180014⟩,
   ⟨0x68, 4, 1, 0x0, 0xffffffff, 0x0, 0x0, 0x0, 0x0, 0x0, 0x0, 0x3c0014⟩,
   ⟨0x6c, 4, 1, 0xffffffff, 0x0, 0x0, 0x0, 0x0, 0x0, 0x0, 0x0, 0x3c0140⟩,
   ⟨0x70, 4, 1, 0x0, 0x0, 0x0, 0x0, 0x0, 0x0, 0x777f00fb, 0x0, 0x10000⟩,
   ⟨0x74, 4, 1, 0x0, 0x0, 0x0, 0x0, 0x0, 0x0, 0xffffffff, 0x0, 0x0⟩,
   ⟨0x78, 4, 1, 0x0, 0x0, 0x0, 0x0, 0x0, 0x0, 0xffffffff, 0x0, 0x0⟩,
   ⟨0x7c, 4, 1, 0x0, 0x0, 0x0, 0x0, 0x0, 0x0, 0xffffffff, 0x0, 0x0⟩,
   ⟨0x80, 4, 1, 0x0, 0x0, 0x0, 0x0, 0x0, 0x0, 0xffffffff, 0x0, 0x0⟩,
   ⟨0x84, 4, 1, 0x0, 0x0, 0x0, 0x0, 0x0, 0x0, 0xffffffff, 0x0, 0x0⟩,
   ⟨0x88, 4, 1, 0x0, 0x0, 0x0, 0x0, 0x0, 0x0, 0xffffffff, 0x0, 0x898⟩,
   ⟨0x8c, 4, 1, 0x0, 0x0, 0x0, 0x0, 0x0, 0x0, 0xffffffff, 0x0, 0x8980898⟩,
   ⟨0x90, 4, 1, 0x0, 0x0, 0x0, 0x0, 0x0, 0x0, 0xffff0000, 0x0, 0x8980000⟩,
   ⟨0x94, 4, 1, 0x0, 0x0, 0x0, 0x0, 0x0, 0x0, 0xffff0003, 0x0, 0x0⟩,
   ⟨0x98, 4, 1, 0x0, 0x0, 0x0, 0x0, 0x0, 0x0, 0xffffffff, 0x0, 0x0⟩,
   ⟨0x9c, 4, 1, 0x0, 0x0, 0x0, 0x0, 0x0, 0xffffffff, 0x0, 0x0, 0x0⟩,
   ⟨0xa0, 4, 1, 0x0, 0x0, 0x0, 0x0, 0x1, 0x0, 0x0, 0x0, 0x0⟩,
   ⟨0xa4, 4, 1, 0x0, 0x0, 0x2, 0x0, 0x0, 0x0, 0x5, 0x0, 0x0⟩,
   ⟨0x100, 16, 8, 0x0, 0xffffffff, 0x0, 0x0, 0x0, 0x0, 0x0, 0x0, 0x8000333⟩,
   ⟨0x104, 16, 8, 0x0, 0xffffffff, 0x0, 0x0, 0x0, 0x0, 0x0, 0x0, 0x3333⟩,
   ⟨0x108, 16, 8, 0x0, 0xffff, 0x0, 0x0, 0x0, 0x0, 0x0, 0x0, 0x8000⟩]

/-- The registers of `LGLB`. -/
def rowsLGLB : List RegRow :=
  [⟨0x40, 4, 1, 0x3ff03ff, 0x0, 0x0, 0x0, 0x0, 0x0, 0x0, 0x0, 0x0⟩,
   ⟨0x44, 4, 1, 0x3ff03ff, 0x0, 0x0, 0x0, 0x0, 0x0, 0x0, 0x0, 0x0⟩,
   ⟨0x48, 4, 8, 0x3f, 0x0, 0x0, 0x0, 0x0, 0x0, 0x0, 0x0, 0x0⟩,
   ⟨0x68, 4, 1, 0xfff30700, 0x0, 0x0, 0x0, 0x3, 0x0, 0x0, 0x0, 0x0⟩,
   ⟨0x6c, 4, 1, 0x0, 0x0, 0x0, 0x0, 0x0, 0x0, 0xfff0007, 0x0, 0x0⟩,
   ⟨0x70, 4, 1, 0xf03ffff, 0x0, 0x0, 0x0, 0xc0000000, 0x0, 0x0, 0x0, 0x1000000⟩,
   ⟨0x74, 4, 1, 0x0, 0x0, 0x0, 0x0, 0x0, 0x0, 0x7ff0003, 0x0, 0x0⟩,
   ⟨0x78, 4, 1, 0xf, 0x0, 0x0, 0x0, 0x0, 0x0, 0x0, 0x0, 0x0⟩,
   ⟨0x7c, 4, 1, 0xfff, 0x0, 0x0, 0x0, 0x0, 0x0, 0x0, 0x0, 0x0⟩,
   ⟨0x80, 4, 1, 0x0, 0x0, 0x0, 0x0, 0x0, 0x0, 0xffffffff, 0x0, 0x0⟩]

/-- The registers of `PRB`. -/
def rowsPRB : List RegRow :=
  [⟨0x40, 4, 1, 0x3fff, 0x0, 0x0, 0x0, 0x0, 0x0, 0x0, 0x3fff, 0x0⟩,
   ⟨0x44, 4, 1, 0x3ff01ff, 0x0, 0x0, 0x0, 0x0, 0x0, 0x0, 0x0, 0x6400c8⟩,
   ⟨0x48, 4, 1, 0x1ff, 0x0, 0x0, 0x0, 0x0, 0x0, 0x0, 0x0, 0x190⟩,
   ⟨0x4c, 4, 1, 0x0, 0x0, 0x0, 0x0, 0x0, 0x0, 0xfff, 0x0, 0x0⟩,
   ⟨0x50, 4, 4, 0x0, 0x0, 0x0, 0x0, 0x0, 0x0, 0xffffffff, 0x0, 0x0⟩,
   ⟨0x60, 4, 1, 0x0, 0x0, 0x0, 0x0, 0x0, 0x0, 0x1fffff, 0x0, 0x0⟩]

/-- The registers of `LNK`. -/
def rowsLNK : List RegRow :=
  [⟨0x40, 4, 1, 0x1, 0x0, 0x0, 0x0, 0x0, 0x0, 0x0, 0x0, 0x0⟩,
   ⟨0x44, 4, 1, 0xffffffff, 0x0, 0x0, 0x0, 0x0, 0x0, 0x0, 0x0, 0x3c001e⟩,
   ⟨0x48, 4, 1, 0xffffffff, 0x0, 0x0, 0x0, 0x0, 0x0, 0x0, 0x0, 0x3c0258⟩,
   ⟨0x4c, 4, 1, 0xffffffff, 0x0, 0x0, 0x0, 0x0, 0x0, 0x0, 0x0, 0x12c003c⟩,
   ⟨0x50, 4, 1, 0xffffffff, 0x0, 0x0, 0x0, 0x0, 0x0, 0x0, 0x0, 0x1180078⟩,
   ⟨0x54, 4, 1, 0xffffffff, 0x0, 0x0, 0x0, 0x0, 0x0, 0x0, 0x0, 0x1900078⟩,
   ⟨0x58, 4, 1, 0xffff, 0x0, 0x0, 0x0, 0x0, 0x0, 0x0, 0x0, 0xa⟩,
   ⟨0x5c, 4, 1, 0xffff, 0x0, 0x0, 0x0, 0x0, 0x0, 0x0, 0x0, 0x1388⟩,
   ⟨0x60, 4, 1, 0x0, 0x0, 0x8000, 0x0, 0x0, 0x0, 0xffff41ff, 0x0, 0x4000⟩,
   ⟨0x64, 4, 1, 0x0, 0x0, 0x0, 0x0, 0x0, 0xffffffff, 0x0, 0x0, 0x0⟩,
   ⟨0x68, 4, 1, 0x0, 0x0, 0x0, 0x0, 0x0, 0xffffffff, 0x0, 0x0, 0x0⟩,
   ⟨0x6c, 4, 1, 0x0, 0x0, 0x0, 0x0, 0x0, 0xffffffff, 0x0, 0x0, 0x0⟩,
   ⟨0x70, 4, 1, 0x0, 0x0, 0x0, 0x0, 0x0, 0xffffffff, 0x0, 0x0, 0x0⟩,
   ⟨0x74, 4, 1, 0x0, 0x0, 0x0, 0x0, 0x0, 0xffffffff, 0x0, 0x0, 0x0⟩,
   ⟨0x80, 4, 1, 0xfff, 0x0, 0x0, 0x0, 0x0, 0x0, 0x0, 0x0, 0x0⟩,
   ⟨0x84, 4, 1, 0x0, 0x0, 0x0, 0x0, 0x0, 0x0, 0x3ffffc07, 0x0, 0x0⟩,
   ⟨0x88, 4, 1, 0x0, 0x0, 0x0, 0x0, 0x0, 0x0, 0xffffffff, 0x0, 0x80008000⟩,
   ⟨0x8c, 4, 1, 0x0, 0x0, 0x0, 0x0, 0x0, 0x0, 0xffffffff, 0x0, 0x80000000⟩,
   ⟨0x90, 4, 1, 0x0, 0x0, 0x0, 0x0, 0x0, 0x0, 0xffffffff, 0x0, 0x80000898⟩,
   ⟨0x94, 4, 1, 0x0, 0x0, 0x0, 0x0, 0x0, 0x0, 0xffffffff, 0x0, 0xffffffff⟩,
   ⟨0x98, 4, 1, 0x0, 0x0, 0x0, 0x0, 0xc0003fff, 0x0, 0x0, 0x0, 0x0⟩]

/-- The registers of `LSN`. -/
def rowsLSN : List RegRow :=
  [⟨0x40, 16, 16, 0xc00003ff, 0x0, 0x0, 0x0, 0x0, 0x0, 0x0, 0x0, 0x40000000⟩,
   ⟨0x44, 16, 16, 0x0, 0x0, 0x0, 0x0, 0x0, 0x0, 0xffff07c3, 0x0, 0x500⟩,
   ⟨0x48, 16, 16, 0x0, 0x0, 0x0, 0x0, 0x0, 0x0, 0xffffffff, 0x0, 0x80008000⟩]

/-- The registers of `LTX`. -/
def rowsLTX : List RegRow :=
  [⟨0x40, 8, 8, 0x8f3003ff, 0x0, 0x0, 0x0, 0x0, 0x0, 0x0, 0x0, 0x100000⟩,
   ⟨0x44, 8, 8, 0x0, 0x0, 0x0, 0x0, 0x0, 0x0, 0xffff0007, 0x0, 0x0⟩,
   ⟨0x80, 4, 1, 0x0, 0x0, 0x0, 0x0, 0x0, 0x0, 0x3ff, 0x0, 0x0⟩]

/-- The registers of `NP`. -/
def rowsNP : List RegRow :=
  [⟨0x40, 4, 1, 0xffff, 0x0, 0x0, 0x0, 0x0, 0x0, 0x0, 0x0, 0x258⟩,
   ⟨0x44, 4, 1, 0xffffffff, 0x0, 0x0, 0x0, 0x0, 0x0, 0x0, 0x0, 0xff380003⟩,
   ⟨0x48, 4, 1, 0xffff0000, 0x0, 0x0, 0x0, 0x0, 0x0, 0x0, 0x0, 0x780000⟩,
   ⟨0x4c, 4, 1, 0xffffffff, 0x0, 0x0, 0x0, 0x0, 0x0, 0x0, 0x0, 0x820fda8⟩,
   ⟨0x50, 4, 1, 0xffffffff, 0x0, 0x0, 0x0, 0x0, 0x0, 0x0, 0x0, 0x3c0640⟩,
   ⟨0x54, 4, 1, 0x0, 0x0, 0x0, 0x0, 0xfff003ff, 0x0, 0x0, 0x0, 0x0⟩,
   ⟨0x58, 4, 1, 0x0, 0x0, 0x0, 0x0, 0x0, 0x0, 0x8fff03ff, 0x0, 0x0⟩,
   ⟨0x5c, 4, 1, 0x0, 0x0, 0x0, 0x0, 0x0, 0xffffffff, 0x0, 0x0, 0x0⟩,
   ⟨0x60, 4, 1, 0x0, 0x0, 0x0, 0x0, 0x0, 0xffffffff, 0x0, 0x0, 0x0⟩,
   ⟨0x70, 4, 4, 0x0, 0x0, 0x0, 0x0, 0x0, 0x0, 0xfffff317, 0xf100, 0x0⟩]

/-- The registers of `ESC`. -/
def rowsESC : List RegRow :=
  [⟨0x40, 4, 10, 0xfffff077, 0x0, 0x0, 0x0, 0x0, 0x0, 0x800, 0x0, 0x0⟩]

/-- The registers of `NPS`. -/
def rowsNPS : List RegRow :=
  [⟨0x40, 4, 1, 0x3fff, 0x0, 0x0, 0x0, 0x0, 0x0, 0x0, 0x0, 0x0⟩,
   ⟨0x44, 4, 1, 0x7ff103, 0x0, 0x0, 0x0, 0x0, 0x0, 0x0, 0x0, 0x7f4000⟩,
   ⟨0x48, 4, 1, 0xffffffff, 0x0, 0x0, 0x0, 0x0, 0x0, 0x0, 0x0, 0xf0003c⟩,
   ⟨0x4c, 4, 1, 0x0, 0x0, 0x0, 0x0, 0x0, 0x0, 0x3fff173, 0x0, 0x0⟩,
   ⟨0x50, 4, 1, 0x0, 0x0, 0x0, 0x0, 0x0, 0x0, 0xfffff317, 0xf100, 0x0⟩,
   ⟨0x54, 4, 1, 0x0, 0x0, 0x0, 0x0, 0x0, 0x0, 0xffffffff, 0x0, 0x8988000⟩,
   ⟨0x58, 4, 1, 0x0, 0x0, 0x0, 0x0, 0x0, 0x0, 0xffff00ff, 0x0, 0x80000000⟩,
   ⟨0x5c, 4, 1, 0xffff, 0x0, 0x0, 0x0, 0x0, 0x0, 0x0, 0x0, 0x0⟩]

/-- The registers of `GRP`. -/
def rowsGRP : List RegRow :=
  [⟨0x40, 4, 1, 0x3ff, 0x0, 0x0, 0x0, 0x0, 0x0, 0x0, 0x0, 0x1⟩,
   ⟨0x44, 4, 1, 0x8000ffff, 0x0, 0x0, 0x0, 0x0, 0x0, 0x0, 0x0, 0x8000⟩,
   ⟨0x48, 4, 1, 0xffffffff, 0x0, 0x0, 0x0, 0x0, 0x0, 0x0, 0x0, 0xf2cc00c8⟩,
   ⟨0x4c, 4, 1, 0xffff0000, 0x0, 0x0, 0x0, 0x0, 0x0, 0xffff, 0x0, 0x8000⟩,
   ⟨0x50, 4, 1, 0x0, 0x0, 0x0, 0x0, 0x0, 0x0, 0xffff0003, 0x0, 0x80000000⟩]

/-- The registers of `TX`. -/
def rowsTX : List RegRow :=
  [⟨0x40, 4, 1, 0x11, 0x0, 0x0, 0x0, 0x100, 0x0, 0x0, 0x0, 0x1⟩,
   ⟨0x44, 4, 1, 0x0, 0x0, 0x0, 0x0, 0x0, 0x0, 0x3077, 0x3000, 0x0⟩,
   ⟨0x48, 4, 1, 0xffffffff, 0x0, 0x0, 0x0, 0x0, 0x0, 0x0, 0x0, 0x10000⟩,
   ⟨0x4c, 4, 1, 0x0, 0x0, 0x0, 0x0, 0x0, 0x0, 0xffffffff, 0x0, 0x80000000⟩,
   ⟨0x50, 4, 1, 0x0, 0x0, 0x0, 0x0, 0x0, 0x0, 0xffffffff, 0x0, 0x8000⟩,
   ⟨0x54, 4, 1, 0xffffffff, 0x0, 0x0, 0x0, 0x0, 0x0, 0x0, 0x0, 0xbf0046⟩,
   ⟨0x58, 4, 1, 0x0, 0x0, 0x0, 0x0, 0x0, 0x0, 0xffffffff, 0x0, 0x80008000⟩,
   ⟨0x5c, 4, 1, 0x0, 0x0, 0x0, 0x0, 0x0, 0x0, 0xffffffff, 0x0, 0x0⟩,
   ⟨0x60, 4, 1, 0x0, 0x30733, 0x0, 0x0, 0x0, 0x0, 0x0, 0x0, 0x10233⟩,
   ⟨0x64, 4, 1, 0xffffffff, 0x0, 0x0, 0x0, 0x0, 0x0, 0x0, 0x0, 0x640064⟩,
   ⟨0x68, 4, 1, 0x0, 0x0, 0x0, 0x0, 0x0, 0x0, 0xffff0037, 0x0, 0x80000000⟩,
   ⟨0x6c, 4, 1, 0x0, 0x0, 0x0, 0x0, 0x0, 0xffffffff, 0x0, 0x0, 0x0⟩,
   ⟨0x400, 4, 128, 0x0, 0xffffffff, 0x0, 0x0, 0x0, 0x0, 0x0, 0x0, 0x40000000⟩,
   ⟨0x600, 4, 128, 0x0, 0x0, 0x0, 0x0, 0x0, 0x0, 0xffffffff, 0x0, 0x0⟩]

/-- The registers of `EMK`. -/
def rowsEMK : List RegRow :=
  [⟨0x40, 4, 1, 0x80fff000, 0x0, 0x0, 0x0, 0x0, 0x0, 0x0, 0x0, 0x80402000⟩,
   ⟨0x44, 4, 1, 0xffffffff, 0x0, 0x0, 0x0, 0x0, 0x0, 0x0, 0x0, 0x14⟩,
   ⟨0x48, 4, 1, 0xffff, 0x0, 0x0, 0x0, 0x0, 0x0, 0x0, 0x0, 0xc8⟩,
   ⟨0x4c, 4, 1, 0x0, 0x0, 0x0, 0x0, 0x0, 0x0, 0xfffffff7, 0x0, 0x80000000⟩,
   ⟨0x50, 4, 1, 0x0, 0x0, 0x0, 0x0, 0x0, 0x0, 0xffffffff, 0x0, 0x0⟩,
   ⟨0x54, 4, 1, 0x0, 0x3f, 0x0, 0x0, 0x0, 0x0, 0x0, 0x0, 0x0⟩,
   ⟨0x100, 8, 32, 0x0, 0xffffffff, 0x0, 0x0, 0x0, 0x0, 0x0, 0x0, 0x0⟩,
   ⟨0x104, 8, 32, 0x0, 0xffff, 0x0, 0x0, 0x0, 0x0, 0x0, 0x0, 0x0⟩]

/-- The registers of `EXT`. -/
def rowsEXT : List RegRow :=
  [⟨0x40, 4, 1, 0x3, 0x0, 0x0, 0x0, 0x100, 0x0, 0x0, 0x0, 0x2⟩,
   ⟨0x44, 4, 1, 0x0, 0x0, 0x0, 0x0, 0x0, 0x0, 0x1fff, 0x0, 0x10⟩,
   ⟨0x48, 4, 1, 0x0, 0x0, 0x0, 0x0, 0x0, 0x0, 0xffffffff, 0x0, 0x0⟩,
   ⟨0x4c, 4, 1, 0xffff, 0x0, 0x0, 0x0, 0x0, 0x0, 0x0, 0x0, 0x0⟩,
   ⟨0x50, 4, 1, 0x0, 0x0, 0x0, 0x0, 0x0, 0x0, 0xffffffff, 0x0, 0x0⟩,
   ⟨0x54, 4, 1, 0x0, 0x0, 0x0, 0x0, 0x0, 0x0, 0xffffffff, 0x0, 0x0⟩,
   ⟨0x58, 4, 1, 0x0, 0x0, 0x0, 0x0, 0x0, 0x0, 0xffffffff, 0x0, 0x0⟩,
   ⟨0x5c, 4, 1, 0x0, 0x0, 0xffff0000, 0x0, 0x0, 0x0, 0xffff, 0x0, 0x0⟩,
   ⟨0x60, 4, 1, 0x0, 0x0, 0x0, 0x0, 0x0, 0xffffffff, 0x0, 0x0, 0x0⟩,
   ⟨0x64, 4, 1, 0x0, 0x0, 0x0, 0x0, 0x0, 0xffffffff, 0x0, 0x0, 0x0⟩,
   ⟨0x68, 4, 1, 0x0, 0x0, 0x0, 0x0, 0x0, 0x0, 0xffffffff, 0x0, 0x80008000⟩,
   ⟨0x6c, 4, 1, 0x3f, 0x0, 0x0, 0x0, 0x0, 0x0, 0x0, 0x0, 0x0⟩,
   ⟨0x70, 4, 1, 0x0, 0x0, 0x0, 0x0, 0x0, 0x0, 0xffffffff, 0x0, 0x0⟩]

/-- The registers of `MON`. -/
def rowsMON : List RegRow :=
  [⟨0x40, 4, 1, 0x1, 0x0, 0x0, 0x0, 0x2, 0x0, 0x0, 0x0, 0x0⟩,
   ⟨0x44, 4, 1, 0x0, 0x0, 0x0, 0x0, 0x0, 0x0, 0xffff00bf, 0x0, 0x0⟩,
   ⟨0x48, 4, 1, 0x0, 0x0, 0x0, 0x0, 0x0, 0xffff0000, 0xfff, 0x0, 0x0⟩,
   ⟨0x4c, 4, 1, 0x0, 0x0, 0x8000, 0x0, 0x0, 0xffff0000, 0x7ff, 0x0, 0x0⟩,
   ⟨0x50, 4, 1, 0x0, 0x0, 0x0, 0x0, 0x0, 0x0, 0xffffffff, 0x0, 0x0⟩,
   ⟨0x54, 4, 1, 0x0, 0x0, 0x0, 0x0, 0x0, 0xffffffff, 0x0, 0x0, 0x0⟩,
   ⟨0x58, 4, 1, 0x0, 0x0, 0x0, 0x0, 0x0, 0x0, 0x30000, 0x0, 0x0⟩,
   ⟨0x5c, 4, 1, 0x0, 0x0, 0x0, 0x0, 0x301, 0x0, 0x0, 0x0, 0x0⟩,
   ⟨0x60, 4, 1, 0xffff, 0x0, 0x0, 0x0, 0x0, 0x0, 0x0, 0x0, 0x960⟩,
   ⟨0x64, 4, 1, 0x0, 0x0, 0x0, 0x0, 0x0, 0x0, 0xffff000f, 0x0, 0x0⟩]

/-- The registers of `MSEQ`. -/
def rowsMSEQ : List RegRow :=
  [⟨0x40, 4, 1, 0x0, 0x3f, 0x0, 0x0, 0x0, 0x0, 0x0, 0x0, 0x0⟩,
   ⟨0x100, 8, 64, 0x0, 0xffffffff, 0x0, 0x0, 0x0, 0x0, 0x0, 0x0, 0x0⟩,
   ⟨0x104, 8, 64, 0x0, 0x3bf, 0x0, 0x0, 0x0, 0x0, 0x0, 0x0, 0x9⟩]

/-- The registers of `MRES`. -/
def rowsMRES : List RegRow :=
  [⟨0x40, 4, 32, 0x0, 0x0, 0x0, 0x0, 0x0, 0x0, 0xffffffff, 0x0, 0x0⟩]

/-- The registers of `MCOR`. -/
def rowsMCOR : List RegRow :=
  [⟨0x40, 4, 32, 0x0, 0x0, 0x0, 0x0, 0x0, 0x0, 0xffffffff, 0xffffffff, 0x0⟩]

/-- The registers of `PWR`. -/
def rowsPWR : List RegRow :=
  [⟨0x40, 4, 1, 0x0, 0x0, 0x0, 0x0, 0x0, 0x0, 0xffffffff, 0x0, 0x0⟩,
   ⟨0x44, 4, 1, 0xffff, 0x0, 0x0, 0x0, 0x0, 0x0, 0x0, 0x0, 0x0⟩,
   ⟨0x48, 4, 1, 0x0, 0x0, 0x0, 0x0, 0x0, 0x0, 0x3ff0075, 0x0, 0x0⟩,
   ⟨0x4c, 4, 1, 0x0, 0x0, 0x0, 0x0, 0x0, 0x0, 0xffff0003, 0x0, 0x0⟩,
   ⟨0x50, 4, 1, 0x0, 0x0, 0x0, 0x0, 0x0, 0x0, 0xffff0007, 0xffff0007, 0x0⟩]

/-- The registers of `THM`. -/
def rowsTHM : List RegRow :=
  [⟨0x40, 4, 14, 0x34, 0x0, 0x0, 0x0, 0x0, 0x0, 0xffff07c0, 0x80, 0x0⟩,
   ⟨0x80, 4, 14, 0xffff, 0x0, 0x0, 0x0, 0x0, 0x0, 0xffff0000, 0x0, 0x0⟩,
   ⟨0xc0, 4, 8, 0xffff0000, 0x0, 0x0, 0x0, 0x0, 0x0, 0xff17, 0x0, 0x0⟩,
   ⟨0xe0, 4, 1, 0x0, 0x0, 0x0, 0x0, 0x0, 0x0, 0x3ff0007, 0x0, 0x0⟩,
   ⟨0xe4, 4, 1, 0x0, 0x0, 0x0, 0x0, 0xc000000f, 0x0, 0x0, 0x0, 0x0⟩]

/-- The registers of `SHED`. -/
def rowsSHED : List RegRow :=
  [⟨0x40, 4, 1, 0x3ff, 0x0, 0x0, 0x0, 0x0, 0x0, 0x0, 0x0, 0x0⟩,
   ⟨0x44, 4, 1, 0xf, 0x0, 0x0, 0x0, 0x0, 0x0, 0xc0000000, 0x0, 0x8⟩]

/-- The registers of `HOST`. -/
def rowsHOST : List RegRow :=
  [⟨0x40, 4, 1, 0x0, 0x0, 0x0, 0x0, 0x0, 0x0, 0xf33, 0x0, 0x0⟩,
   ⟨0x44, 4, 1, 0x0, 0x0, 0x0, 0x2, 0x0, 0x0, 0x1, 0x0, 0x0⟩,
   ⟨0x48, 4, 1, 0xffffffff, 0x0, 0x0, 0x0, 0x0, 0x0, 0x0, 0x0, 0x1400020⟩,
   ⟨0x4c, 4, 1, 0x0, 0x0, 0x0, 0x0, 0x0, 0x0, 0x1ffffff, 0x0, 0x0⟩,
   ⟨0x50, 4, 1, 0x0, 0x0, 0x0, 0x0, 0x0, 0xffffffff, 0x0, 0x0, 0x0⟩,
   ⟨0x54, 4, 1, 0x0, 0x0, 0x0, 0x0, 0x0, 0x0, 0x1ff0fff, 0x0, 0x0⟩,
   ⟨0x58, 4, 1, 0x1f, 0x0, 0x0, 0x0, 0x0, 0x0, 0x0, 0x0, 0x0⟩,
   ⟨0x5c, 4, 1, 0x0, 0x0, 0x0, 0x0, 0x0, 0x0, 0xffffffff, 0x0, 0x0⟩]

/-- The registers of `RING`. -/
def rowsRING : List RegRow :=
  [⟨0x0, 4, 1, 0xffffffff, 0x0, 0x0, 0x0, 0x0, 0x0, 0x0, 0x0, 0x0⟩,
   ⟨0x4, 4, 1, 0xffffffff, 0x0, 0x0, 0x0, 0x0, 0x0, 0x0, 0x0, 0x0⟩,
   ⟨0x8, 4, 1, 0xffffffff, 0x0, 0x0, 0x0, 0x0, 0x0, 0x0, 0x0, 0x0⟩,
   ⟨0xc, 4, 1, 0xffffffff, 0x0, 0x0, 0x0, 0x0, 0x0, 0x0, 0x0, 0x0⟩,
   ⟨0x10, 4, 1, 0xc7ff001f, 0x0, 0x0, 0x0, 0x0, 0x0, 0x0, 0x0, 0xa⟩,
   ⟨0x14, 4, 1, 0xffff, 0x0, 0x0, 0x0, 0x0, 0x0, 0x0, 0x0, 0x0⟩,
   ⟨0x18, 4, 1, 0x0, 0x0, 0x0, 0x0, 0x0, 0x0, 0xffffffff, 0x0, 0x0⟩,
   ⟨0x1c, 4, 1, 0x0, 0x0, 0x0, 0x0, 0x0, 0x0, 0xffffffff, 0x0, 0x0⟩]

/-- The registers of `DMA`. -/
def rowsDMA : List RegRow :=
  [⟨0x0, 4, 1, 0xffffffff, 0x0, 0x0, 0x0, 0x0, 0x0, 0x0, 0x0, 0x0⟩,
   ⟨0x4, 4, 1, 0xffffffff, 0x0, 0x0, 0x0, 0x0, 0x0, 0x0, 0x0, 0x0⟩,
   ⟨0x8, 4, 1, 0xffffffff, 0x0, 0x0, 0x0, 0x0, 0x0, 0x0, 0x0, 0x0⟩,
   ⟨0xc, 4, 1, 0xffffffff, 0x0, 0x0, 0x0, 0x0, 0x0, 0x0, 0x0, 0x0⟩,
   ⟨0x10, 4, 1, 0xc7ff001f, 0x0, 0x0, 0x0, 0x0, 0x0, 0x0, 0x0, 0x8⟩,
   ⟨0x14, 4, 1, 0x0, 0x0, 0x0, 0x0, 0x0, 0x0, 0xffffffff, 0x0, 0x0⟩,
   ⟨0x18, 4, 1, 0x0, 0x0, 0x0, 0x0, 0x0, 0x0, 0xffffffff, 0x0, 0x0⟩,
   ⟨0x1c, 4, 1, 0x0, 0x0, 0x0, 0x0, 0x0, 0x0, 0xfff0f07, 0x0, 0x0⟩,
   ⟨0x20, 4, 1, 0x0, 0x0, 0x0, 0x0, 0x7, 0x0, 0x0, 0x0, 0x0⟩]

/-- The registers of `CAP`. -/
def rowsCAP : List RegRow :=
  [⟨0x0, 4, 1, 0x73f003ff, 0x0, 0x0, 0x0, 0x0, 0x0, 0x0, 0x0, 0x0⟩,
   ⟨0x4, 4, 1, 0x7fffff, 0x0, 0x0, 0x0, 0x0, 0x0, 0x0, 0x0, 0x0⟩,
   ⟨0x8, 4, 1, 0x7fffff, 0x0, 0x0, 0x0, 0x0, 0x0, 0x0, 0x0, 0x1⟩,
   ⟨0xc, 4, 1, 0xf0003, 0x0, 0x0, 0x0, 0xc0000000, 0x0, 0x0, 0x0, 0x0⟩,
   ⟨0x10, 4, 1, 0x0, 0x0, 0x0, 0x0, 0x0, 0xffff0000, 0x7, 0x0, 0x0⟩,
   ⟨0x14, 4, 1, 0x0, 0x0, 0x0, 0x0, 0x0, 0x0, 0xffffffff, 0x0, 0x0⟩,
   ⟨0x18, 4, 1, 0x0, 0x0, 0x0, 0x0, 0x0, 0x0, 0xffffffff, 0x0, 0x0⟩,
   ⟨0x1c, 4, 1, 0x0, 0x0, 0x0, 0x0, 0x0, 0x0, 0x7ffff, 0x0, 0x0⟩]

/-- The registers of `QB`. -/
def rowsQB : List RegRow :=
  [⟨0x0, 4, 1, 0x8700003f, 0x0, 0x0, 0x0, 0x0, 0x0, 0x0, 0x0, 0x0⟩,
   ⟨0x4, 4, 1, 0xffffff, 0x0, 0x0, 0x0, 0x0, 0x0, 0x0, 0x0, 0x0⟩,
   ⟨0x8, 4, 1, 0xffff, 0x0, 0x0, 0x0, 0x0, 0x0, 0x0, 0x0, 0x0⟩,
   ⟨0xc, 4, 1, 0x0, 0x0, 0x60000000, 0x0, 0x0, 0x0, 0x87ffffff, 0x0, 0x0⟩,
   ⟨0x10, 4, 1, 0x0, 0x0, 0x0, 0x0, 0x0, 0x0, 0xffffff, 0x0, 0x0⟩,
   ⟨0x14, 4, 1, 0x0, 0x0, 0x0, 0x0, 0x0, 0x0, 0xffffffff, 0x0, 0x0⟩,
   ⟨0x18, 4, 1, 0x0, 0x0, 0x0, 0x0, 0x1, 0x0, 0x0, 0x0, 0x0⟩,
   ⟨0x1c, 4, 1, 0x0, 0x0, 0x0, 0x0, 0x0, 0xffffffff, 0x0, 0x0, 0x0⟩,
   ⟨0x20, 4, 1, 0x0, 0x0, 0x0, 0x0, 0x0, 0xffffffff, 0x0, 0x0, 0x0⟩]

/-- The registers of `IDENT`. -/
def rowsIDENT : List RegRow :=
  [⟨0x40, 4, 1, 0x0, 0x0, 0x0, 0x0, 0x0, 0x0, 0xffffffff, 0x0, 0xd3d04400⟩,
   ⟨0x44, 4, 1, 0x0, 0x0, 0x0, 0x0, 0x0, 0x0, 0xff, 0x0, 0x0⟩,
   ⟨0x48, 4, 1, 0x0, 0x0, 0x0, 0x0, 0x0, 0x0, 0xffffffff, 0x0, 0x0⟩,
   ⟨0x4c, 4, 1, 0x0, 0x0, 0x0, 0x0, 0x0, 0x0, 0xffffffff, 0x0, 0x0⟩,
   ⟨0x50, 4, 1, 0x0, 0x0, 0x0, 0x0, 0x0, 0x0, 0xffffffff, 0x0, 0x0⟩,
   ⟨0x54, 4, 1, 0x0, 0x0, 0x0, 0x0, 0x0, 0x0, 0xffffffff, 0x0, 0x0⟩]

/-- The registers of `MODE`. -/
def rowsMODE : List RegRow :=
  [⟨0x40, 4, 1, 0x0, 0x0, 0x0, 0x0, 0x0, 0x0, 0x1f177, 0x0, 0x0⟩,
   ⟨0x44, 4, 1, 0x0, 0x0, 0x0, 0x0, 0xff00000f, 0x0, 0x0, 0x0, 0x0⟩,
   ⟨0x48, 4, 1, 0x0, 0x0, 0x0, 0x0, 0x0, 0x0, 0xf3, 0x0, 0x0⟩,
   ⟨0x4c, 4, 1, 0x0, 0x0, 0x0, 0x0, 0x0, 0x0, 0x31, 0x0, 0x0⟩,
   ⟨0x50, 4, 1, 0x0, 0x0, 0x0, 0x0, 0x0, 0x0, 0xffff000f, 0x0, 0x0⟩,
   ⟨0x54, 4, 1, 0x0, 0x0, 0x0, 0x0, 0x0, 0x0, 0xffffffff, 0x0, 0x0⟩]

/-- The registers of `GCLK`. -/
def rowsGCLK : List RegRow :=
  [⟨0x40, 4, 1, 0x0, 0x0, 0x0, 0x0, 0x0, 0x0, 0xffff001f, 0x0, 0x0⟩,
   ⟨0x44, 4, 1, 0x0, 0x0, 0x0, 0x0, 0x0, 0xffff, 0x0, 0x0, 0x0⟩]

/-- The registers of `IRQ`. -/
def rowsIRQ : List RegRow :=
  [⟨0x40, 4, 1, 0x0, 0x0, 0x0, 0x0, 0x0, 0x0, 0xffffffff, 0x0, 0x0⟩,
   ⟨0x44, 4, 1, 0x1f, 0x0, 0x0, 0x0, 0x0, 0x0, 0x0, 0x0, 0x0⟩,
   ⟨0x48, 4, 1, 0x0, 0x0, 0x80000000, 0x0, 0x0, 0x0, 0x3fff, 0x0, 0x0⟩,
   ⟨0x4c, 4, 1, 0x0, 0x0, 0x0, 0x0, 0x0, 0xffffffff, 0x0, 0x0, 0x0⟩,
   ⟨0x80, 4, 16, 0x0, 0x0, 0x0, 0x0, 0x0, 0x0, 0xffffffff, 0x0, 0x0⟩,
   ⟨0x100, 8, 64, 0xbfff3fff, 0x0, 0x0, 0x0, 0x0, 0x0, 0x0, 0x0, 0x0⟩,
   ⟨0x104, 8, 64, 0xf00007ff, 0x0, 0x0, 0x0, 0x0, 0x0, 0x0, 0x0, 0x0⟩]

/-- The registers of `WVL`. -/
def rowsWVL : List RegRow :=
  [⟨0x40, 4, 1, 0x0, 0x0, 0x0, 0x0, 0x0, 0x0, 0x1f070f, 0x0, 0x0⟩,
   ⟨0x44, 4, 1, 0x0, 0x0, 0x0, 0x0, 0x0, 0x0, 0x1f, 0x0, 0x0⟩,
   ⟨0x48, 4, 1, 0x0, 0x0, 0x0, 0x0, 0x0, 0x0, 0xffffffff, 0x0, 0x0⟩]

/-- The registers of `FLT`. -/
def rowsFLT : List RegRow :=
  [⟨0x40, 4, 1, 0x1, 0x0, 0x0, 0x0, 0x0, 0x0, 0x0, 0x0, 0x0⟩,
   ⟨0x44, 4, 1, 0x0, 0x0, 0x80000000, 0x0, 0x0, 0x0, 0x730000ff, 0x0, 0x0⟩,
   ⟨0x48, 4, 1, 0x0, 0x0, 0x0, 0x0, 0x0, 0x0, 0xffffffff, 0x0, 0x0⟩,
   ⟨0x4c, 4, 1, 0x0, 0x0, 0x0, 0x0, 0x0, 0x0, 0xffffffff, 0x0, 0x0⟩,
   ⟨0x50, 4, 1, 0x0, 0x0, 0x0, 0x0, 0x0, 0x0, 0x3, 0x0, 0x0⟩,
   ⟨0x60, 4, 8, 0x0, 0x0, 0xffffffff, 0x0, 0x0, 0x0, 0x0, 0x0, 0x0⟩,
   ⟨0x80, 4, 8, 0x0, 0x0, 0x0, 0x0, 0x0, 0x0, 0xffffffff, 0x0, 0x0⟩]

/-- The registers of `FSRC`. -/
def rowsFSRC : List RegRow :=
  [⟨0x40, 4, 1, 0xff, 0x0, 0x0, 0x0, 0x0, 0x0, 0x0, 0x0, 0x0⟩,
   ⟨0x44, 4, 1, 0x0, 0x0, 0x0, 0x0, 0x0, 0x0, 0xffff1f01, 0x0, 0x0⟩,
   ⟨0x48, 4, 1, 0x0, 0x0, 0x0, 0x0, 0x0, 0xffffffff, 0x0, 0x0, 0x0⟩,
   ⟨0x4c, 4, 1, 0x0, 0x0, 0x0, 0x0, 0x0, 0x0, 0xffffffff, 0x0, 0x0⟩]

/-- The registers of `TAL`. -/
def rowsTAL : List RegRow :=
  [⟨0x40, 4, 1, 0x0, 0x0, 0x0, 0x0, 0x1, 0x0, 0x0, 0x0, 0x0⟩,
   ⟨0x44, 4, 1, 0x0, 0x0, 0x0, 0x0, 0x0, 0x0, 0xfff, 0x400, 0x0⟩,
   ⟨0x48, 4, 1, 0x0, 0x0, 0x0, 0x0, 0x0, 0x0, 0xffffffff, 0xffffffff, 0x0⟩,
   ⟨0x4c, 4, 1, 0x0, 0x0, 0x0, 0x0, 0x0, 0x0, 0xffff, 0xffff, 0x0⟩,
   ⟨0x50, 4, 1, 0x0, 0x0, 0x0, 0x0, 0x0, 0xffffffff, 0x0, 0x0, 0x0⟩,
   ⟨0x54, 4, 1, 0x0, 0x0, 0x0, 0x0, 0x0, 0x0, 0xffffffff, 0xffffffff, 0x0⟩,
   ⟨0x58, 4, 1, 0x0, 0x0, 0x0, 0x0, 0x0, 0x0, 0xffffff, 0xffffff, 0x0⟩,
   ⟨0x5c, 4, 1, 0xffffffff, 0x0, 0x0, 0x0, 0x0, 0x0, 0x0, 0x0, 0x0⟩,
   ⟨0x60, 4, 1, 0xffffffff, 0x0, 0x0, 0x0, 0x0, 0x0, 0x0, 0x0, 0x0⟩,
   ⟨0x64, 4, 1, 0x3, 0x0, 0x0, 0x0, 0x80000000, 0x0, 0x0, 0x0, 0x0⟩,
   ⟨0x68, 4, 1, 0x0, 0x0, 0x0, 0x0, 0x0, 0x0, 0xffff0fff, 0xffff0ff8, 0x0⟩,
   ⟨0x6c, 4, 1, 0x0, 0x0, 0x0, 0x0, 0x0, 0x0, 0x1fff, 0x1fff, 0x0⟩,
   ⟨0x70, 4, 1, 0x0, 0x0, 0x0, 0x0, 0x0, 0x0, 0x7ffff, 0x7ffff, 0x0⟩]

/-- The registers of `SNAP`. -/
def rowsSNAP : List RegRow :=
  [⟨0x40, 4, 1, 0x3f, 0x0, 0x0, 0x0, 0x0, 0x0, 0x0, 0x0, 0x0⟩,
   ⟨0x44, 4, 1, 0xffffffff, 0x0, 0x0, 0x0, 0x0, 0x0, 0x0, 0xffffffff, 0x0⟩,
   ⟨0x48, 4, 1, 0xffffffff, 0x0, 0x0, 0x0, 0x0, 0x0, 0x0, 0xffffffff, 0x0⟩,
   ⟨0x4c, 4, 1, 0x8000000f, 0x0, 0x0, 0x0, 0x0, 0x0, 0x0, 0x8000000f, 0x0⟩,
   ⟨0x50, 4, 11, 0xbfff0fff, 0x0, 0x0, 0x0, 0x0, 0x0, 0x0, 0xbfff0fff, 0x0⟩]

/-- The registers of `TRD`. -/
def rowsTRD : List RegRow :=
  [⟨0x40, 4, 1, 0x3007ffff, 0x0, 0x0, 0x0, 0x80000000, 0x0, 0x0, 0x0, 0x0⟩,
   ⟨0x44, 4, 1, 0xffffffff, 0x0, 0x0, 0x0, 0x0, 0x0, 0x0, 0x0, 0x0⟩,
   ⟨0x48, 4, 1, 0xffff, 0x0, 0x0, 0x0, 0x0, 0x0, 0x0, 0x0, 0x0⟩,
   ⟨0x4c, 4, 1, 0x0, 0x0, 0x0, 0x0, 0x0, 0x0, 0x7, 0x0, 0x0⟩,
   ⟨0x50, 4, 1, 0xffffffff, 0x0, 0x0, 0x0, 0x0, 0x0, 0x0, 0x0, 0x0⟩,
   ⟨0x54, 4, 1, 0xffff, 0x0, 0x0, 0x0, 0x0, 0x0, 0x0, 0x0, 0x0⟩,
   ⟨0x58, 4, 1, 0x7ffff, 0x0, 0x0, 0x0, 0x0, 0x0, 0x0, 0x0, 0x1⟩,
   ⟨0x5c, 4, 1, 0x7fffff, 0x0, 0x0, 0x0, 0x0, 0x0, 0x0, 0x0, 0x0⟩,
   ⟨0x60, 4, 1, 0x1, 0x0, 0x0, 0x0, 0x80000000, 0x0, 0x0, 0x0, 0x0⟩,
   ⟨0x64, 4, 1, 0x0, 0x0, 0x0, 0x0, 0x0, 0x0, 0xfffff003, 0x0, 0x0⟩,
   ⟨0x80, 4, 32, 0x0, 0x0, 0x0, 0x0, 0x0, 0x0, 0xffffffff, 0x0, 0x0⟩]

/-- The registers of `GRN`. -/
def rowsGRN : List RegRow :=
  [⟨0x40, 4, 1, 0x0, 0x0, 0x0, 0x0, 0x0, 0x0, 0x1ffff, 0xffff, 0x0⟩,
   ⟨0x44, 4, 1, 0xffff, 0x0, 0x0, 0x0, 0x0, 0x0, 0x0, 0x0, 0x64⟩,
   ⟨0x48, 4, 1, 0x0, 0x0, 0x0, 0x0, 0x0, 0xffffffff, 0x0, 0x0, 0x0⟩]

/-- The registers of `BOOT`. -/
def rowsBOOT : List RegRow :=
  [⟨0x40, 4, 1, 0x0, 0x0, 0x0, 0x0, 0x0, 0x0, 0xf3ff1ff, 0xf3f00ff, 0x0⟩,
   ⟨0x44, 4, 1, 0xffffffff, 0x0, 0x0, 0x0, 0x0, 0x0, 0x0, 0xffffffff, 0x1e140a⟩,
   ⟨0x48, 4, 1, 0x0, 0x0, 0x0, 0x0, 0x3, 0x0, 0x0, 0x0, 0x0⟩,
   ⟨0x4c, 4, 1, 0x0, 0x0, 0x0, 0x0, 0x0, 0x0, 0x3, 0x1, 0x0⟩,
   ⟨0x50, 4, 1, 0x1f, 0x0, 0x0, 0x0, 0x0, 0x0, 0x0, 0x0, 0x0⟩,
   ⟨0x54, 4, 1, 0x0, 0x0, 0x0, 0x0, 0x0, 0x0, 0xffffffff, 0x0, 0x0⟩,
   ⟨0x58, 4, 1, 0x0, 0x0, 0x0, 0x0, 0x0, 0x0, 0xffffffff, 0x0, 0x0⟩,
   ⟨0x5c, 4, 1, 0x0, 0x0, 0x0, 0x0, 0x0, 0x0, 0xffffffff, 0x0, 0x0⟩,
   ⟨0x60, 4, 1, 0x0, 0x0, 0x0, 0x0, 0x0, 0x0, 0xffffffff, 0x0, 0x0⟩,
   ⟨0x84, 4, 11, 0x0, 0x0, 0x0, 0x0, 0x0, 0x0, 0xffffffff, 0x0, 0x0⟩]

/-- The registers of `IMG`. -/
def rowsIMG : List RegRow :=
  [⟨0x40, 4, 1, 0x0, 0x0, 0x0, 0x0, 0x0, 0x0, 0xffff000f, 0xffff000d, 0x0⟩,
   ⟨0x44, 4, 1, 0x0, 0x0, 0x0, 0x0, 0x0, 0x0, 0xffff000f, 0xffff000d, 0x0⟩,
   ⟨0x48, 4, 1, 0x0, 0x0, 0x0, 0x0, 0x0, 0x0, 0xffffffff, 0xffffffff, 0x0⟩,
   ⟨0x4c, 4, 1, 0x7fffff, 0x0, 0x0, 0x0, 0x0, 0x0, 0x0, 0x0, 0x0⟩,
   ⟨0x50, 4, 1, 0xffffffff, 0x0, 0x0, 0x0, 0x0, 0x0, 0x0, 0x0, 0x0⟩,
   ⟨0x54, 4, 1, 0x3, 0x0, 0x0, 0x0, 0x80000000, 0x0, 0x0, 0x0, 0x2⟩,
   ⟨0x58, 4, 1, 0x0, 0x0, 0x0, 0x0, 0x0, 0x0, 0xf, 0x0, 0x0⟩,
   ⟨0x5c, 4, 1, 0x0, 0x0, 0x0, 0x0, 0x0, 0x0, 0xffff, 0xffff, 0x0⟩]

/-- The registers of `TRUST`. -/
def rowsTRUST : List RegRow :=
  [⟨0x40, 4, 1, 0x0, 0x0, 0x0, 0x0, 0x0, 0x0, 0xff01, 0xff00, 0x0⟩,
   ⟨0x44, 4, 1, 0x7fffff, 0x0, 0x0, 0x0, 0x0, 0x0, 0x0, 0x0, 0x0⟩,
   ⟨0x48, 4, 1, 0x3fff, 0x0, 0x0, 0x0, 0x0, 0x0, 0x0, 0x0, 0x0⟩,
   ⟨0x4c, 4, 1, 0x0, 0x0, 0x0, 0x0, 0x80000000, 0x0, 0x0, 0x0, 0x0⟩,
   ⟨0x50, 4, 1, 0x0, 0x0, 0x0, 0x0, 0x0, 0x0, 0xffffff0f, 0x0, 0x0⟩,
   ⟨0x54, 4, 1, 0x0, 0x0, 0x0, 0x0, 0x0, 0x0, 0xffffffff, 0xffffffff, 0x0⟩,
   ⟨0x58, 4, 1, 0x0, 0x0, 0x0, 0x0, 0x1, 0x0, 0x0, 0x0, 0x0⟩,
   ⟨0x5c, 4, 1, 0x0, 0x0, 0x0, 0x0, 0x80000000, 0x0, 0x0, 0x0, 0x0⟩,
   ⟨0x60, 4, 1, 0x7fffff, 0x0, 0x0, 0x0, 0x0, 0x0, 0x0, 0x0, 0x0⟩,
   ⟨0x64, 4, 1, 0x0, 0x0, 0x0, 0x0, 0x0, 0x0, 0x7, 0x0, 0x0⟩,
   ⟨0x68, 4, 1, 0x0, 0x0, 0x0, 0x0, 0x0, 0x0, 0x1fffff, 0x1fffff, 0x0⟩,
   ⟨0x6c, 4, 1, 0x0, 0x0, 0x0, 0x0, 0x0, 0x0, 0x1fffff, 0x1fffff, 0x0⟩,
   ⟨0x80, 4, 8, 0xffffffff, 0x0, 0x0, 0x0, 0x0, 0x0, 0x0, 0x0, 0x0⟩,
   ⟨0xa0, 4, 1, 0xf, 0x0, 0x0, 0x0, 0x0, 0x0, 0x0, 0x0, 0x0⟩,
   ⟨0xc0, 4, 17, 0x0, 0x0, 0x0, 0x0, 0x0, 0x0, 0xffffffff, 0x0, 0x0⟩]

/-- The registers of `PROV`. -/
def rowsPROV : List RegRow :=
  [⟨0x40, 4, 1, 0x0, 0x0, 0x0, 0x0, 0x3, 0x0, 0x0, 0x0, 0x0⟩,
   ⟨0x44, 4, 1, 0xff, 0x0, 0x0, 0x0, 0x0, 0x0, 0x0, 0x0, 0x0⟩,
   ⟨0x60, 4, 8, 0xffffffff, 0x0, 0x0, 0x0, 0x0, 0x0, 0x0, 0x0, 0x0⟩]

/-- The registers of `INJ`. -/
def rowsINJ : List RegRow :=
  [⟨0x0, 4, 1, 0xfe00ffff, 0x0, 0x0, 0x0, 0x0, 0x0, 0x0, 0x0, 0x0⟩,
   ⟨0x4, 4, 1, 0xc0ffffff, 0x0, 0x0, 0x0, 0x0, 0x0, 0x0, 0x0, 0x0⟩,
   ⟨0x8, 4, 1, 0xffffffff, 0x0, 0x0, 0x0, 0x0, 0x0, 0x0, 0x0, 0x1⟩,
   ⟨0xc, 4, 1, 0xffffffff, 0x0, 0x0, 0x0, 0x0, 0x0, 0x0, 0x0, 0x10001⟩,
   ⟨0x10, 4, 1, 0xffffffff, 0x0, 0x0, 0x0, 0x0, 0x0, 0x0, 0x0, 0x0⟩,
   ⟨0x14, 4, 1, 0x0, 0x0, 0x0, 0x0, 0x0, 0xffffffff, 0x0, 0x0, 0x0⟩,
   ⟨0x18, 4, 1, 0x0, 0x0, 0x0, 0x0, 0x0, 0x0, 0xffffffff, 0x0, 0x0⟩,
   ⟨0x1c, 4, 1, 0x0, 0x0, 0x0, 0x0, 0x0, 0x0, 0xffff000f, 0x0, 0x0⟩]

end Sys2Proof.Machine
end

