-- ==== Sys2Proof/Machine/RegReset.lean ====
section
/-!
DEFINITION. The page map (Table 15.2), the registers of a page, and their reset words.
-/

namespace Sys2Proof.Machine

/-- The kind of a page. The kinds after `unoccupied` are the records behind a window register, held under
page numbers above the 16,384 real pages. -/
inductive PageKind where
  | ident | glbMode | glbClk | glbIrq | prov | loopGlb | air | port | dcf | conv | convGlb | tx | emk
  | npGlb | npEsc | npSegw | npGrpw | prbGlb | lnkGlb | lnkLsn | lnkTx | ext | monGlb | monSeq | monRes | monCorr
  | pwrGlb | thmGlb | thmSegw | hostGlb | ring | dma | cap | gq | fltGlb | fltSrc
  | talGlb | talSnap | talRead | grn | boot | img | trust | wvl | bwin | seg | loop | queue
  | unoccupied
  | npSeg | npGrp | shed | pattern | snap
deriving DecidableEq, Repr

def pgMODE : Nat := 1
def pgCLK : Nat := 2
def pgIRQ : Nat := 3
def pgPROV : Nat := 4
def pgLGLB : Nat := 0xC
def pgAIR (c : Nat) : Nat := 0x10 + c
def pgPORT (p : Nat) : Nat := 0x20 + p
def pgDCF (p : Nat) : Nat := 0x28 + p
/-- Converter i: 0 to 3 ADC, 4 to 7 DAC, 8 to 11 OBS. -/
def pgCONV (i : Nat) : Nat := 0x40 + i
def pgCGLB : Nat := 0x4C
def pgTX (p : Nat) : Nat := 0x60 + p
def pgEMK (p : Nat) : Nat := 0x64 + p
def pgNP : Nat := 0x70
def pgESC : Nat := 0x71
def pgNPSW : Nat := 0x72
def pgNPGW : Nat := 0x73
def pgPRB : Nat := 0x80
def pgLNK : Nat := 0x81
def pgLSN : Nat := 0x82
def pgLTX : Nat := 0x83
def pgEXT (k : Nat) : Nat := 0x90 + k
def pgMON : Nat := 0xA0
def pgMSEQ : Nat := 0xA1
def pgMRES : Nat := 0xA2
def pgMCOR : Nat := 0xA3
def pgPWR : Nat := 0xB0
def pgTHM : Nat := 0xB1
def pgTHSW : Nat := 0xB2
def pgHOST : Nat := 0xC0
def pgRING : Nat := 0xC1
def pgDMA : Nat := 0xC2
def pgCAP : Nat := 0xC3
def pgGQ : Nat := 0xC4
def pgFLT : Nat := 0xD0
def pgFSRC : Nat := 0xD1
def pgTAL : Nat := 0xE0
def pgSNAP : Nat := 0xE1
def pgTRD : Nat := 0xE2
def pgGRN : Nat := 0xE3
def pgBOOT : Nat := 0xF0
def pgIMG : Nat := 0xF1
def pgTRUST : Nat := 0xF2
def pgWVL (k : Nat) : Nat := 0x100 + k
def pgBWIN (w : Nat) : Nat := 0x120 + w
def pgSEG (n : Nat) : Nat := 0x400 + n
def pgLOOP (n : Nat) : Nat := 0x800 + n
/-- The page of segment queue m (R384). -/
def pgQ (m : Nat) : Nat := 0x1000 + m / 4
/-- Windowed records: NP_SEGW by segment, NP_GRPW by group, THM_SEGW by segment, the pattern window by segment,
TAL_SNAP by list. -/
def pgNPS (n : Nat) : Nat := 0x10000 + n
def pgGRP (g : Nat) : Nat := 0x11000 + g
def pgSHED (n : Nat) : Nat := 0x12000 + n
def pgPAT (n : Nat) : Nat := 0x13000 + n
def pgSNL (l : Nat) : Nat := 0x14000 + l

/-- Table 15.2, and the records behind the windows: a page's kind and its index within the kind. -/
def kindOf (page : Nat) : PageKind × Nat :=
  if page < 0x100 then
    if page = 0 then (.ident, 0) else if page = 1 then (.glbMode, 0) else if page = 2 then (.glbClk, 0)
    else if page = 3 then (.glbIrq, 0) else if page = 4 then (.prov, 0) else if page = 0xC then (.loopGlb, 0)
    else if page < 0x10 then (.unoccupied, 0)
    else if page < 0x20 then (.air, page - 0x10)
    else if page < 0x24 then (.port, page - 0x20) else if page < 0x28 then (.unoccupied, 0)
    else if page < 0x2C then (.dcf, page - 0x28) else if page < 0x40 then (.unoccupied, 0)
    else if page < 0x4C then (.conv, page - 0x40) else if page = 0x4C then (.convGlb, 0)
    else if page < 0x60 then (.unoccupied, 0)
    else if page < 0x64 then (.tx, page - 0x60) else if page < 0x68 then (.emk, page - 0x64)
    else if page < 0x70 then (.unoccupied, 0)
    else if page = 0x70 then (.npGlb, 0) else if page = 0x71 then (.npEsc, 0) else if page = 0x72 then (.npSegw, 0)
    else if page = 0x73 then (.npGrpw, 0) else if page < 0x80 then (.unoccupied, 0)
    else if page = 0x80 then (.prbGlb, 0) else if page = 0x81 then (.lnkGlb, 0) else if page = 0x82 then (.lnkLsn, 0)
    else if page = 0x83 then (.lnkTx, 0) else if page < 0x90 then (.unoccupied, 0)
    else if page < 0x94 then (.ext, page - 0x90) else if page < 0xA0 then (.unoccupied, 0)
    else if page = 0xA0 then (.monGlb, 0) else if page = 0xA1 then (.monSeq, 0) else if page = 0xA2 then (.monRes, 0)
    else if page = 0xA3 then (.monCorr, 0) else if page < 0xB0 then (.unoccupied, 0)
    else if page = 0xB0 then (.pwrGlb, 0) else if page = 0xB1 then (.thmGlb, 0) else if page = 0xB2 then (.thmSegw, 0)
    else if page < 0xC0 then (.unoccupied, 0)
    else if page = 0xC0 then (.hostGlb, 0) else if page = 0xC1 then (.ring, 0) else if page = 0xC2 then (.dma, 0)
    else if page = 0xC3 then (.cap, 0) else if page = 0xC4 then (.gq, 0) else if page < 0xD0 then (.unoccupied, 0)
    else if page = 0xD0 then (.fltGlb, 0) else if page = 0xD1 then (.fltSrc, 0) else if page < 0xE0 then (.unoccupied, 0)
    else if page = 0xE0 then (.talGlb, 0) else if page = 0xE1 then (.talSnap, 0) else if page = 0xE2 then (.talRead, 0)
    else if page = 0xE3 then (.grn, 0) else if page < 0xF0 then (.unoccupied, 0)
    else if page = 0xF0 then (.boot, 0) else if page = 0xF1 then (.img, 0) else if page = 0xF2 then (.trust, 0)
    else (.unoccupied, 0)
  else if page < 0x120 then (.wvl, page - 0x100)
  else if page < 0x140 then (.bwin, page - 0x120)
  else if page < 0x400 then (.unoccupied, 0)
  else if page < 0x800 then (.seg, page - 0x400)
  else if page < 0xC00 then (.loop, page - 0x800)
  else if page < 0x1000 then (.unoccupied, 0)
  else if page < 0x2000 then (.queue, page - 0x1000)
  else if page < 0x10000 then (.unoccupied, 0)
  else if page < 0x10400 then (.npSeg, page - 0x10000)
  else if page < 0x11000 then (.unoccupied, 0)
  else if page < 0x11400 then (.npGrp, page - 0x11000)
  else if page < 0x12000 then (.unoccupied, 0)
  else if page < 0x12400 then (.shed, page - 0x12000)
  else if page < 0x13000 then (.unoccupied, 0)
  else if page < 0x13400 then (.pattern, page - 0x13000)
  else if page < 0x14000 then (.unoccupied, 0)
  else if page < 0x14040 then (.snap, page - 0x14000)
  else (.unoccupied, 0)

/-- A page that answers accesses (R387, R397). -/
def occupied (page : Nat) : Bool := decide (page < 0x4000) && decide ((kindOf page).1 ≠ .unoccupied)

/-- The block type that PAGE_ID shows (Table 15.2). -/
def typeOf (page : Nat) : Nat :=
  match kindOf page with
  | (.ident, _) => 0x0001 | (.glbMode, _) => 0x0002 | (.glbClk, _) => 0x0003 | (.glbIrq, _) => 0x0004
  | (.prov, _) => 0x0006 | (.loopGlb, _) => 0x0005 | (.air, _) => 0x0010 | (.port, _) => 0x0020 | (.dcf, _) => 0x0021
  | (.conv, i) => 0x0030 + i / 4 | (.convGlb, _) => 0x0033 | (.tx, _) => 0x0040 | (.emk, _) => 0x0041
  | (.npGlb, _) => 0x0050 | (.npEsc, _) => 0x0051 | (.npSegw, _) => 0x0052 | (.npGrpw, _) => 0x0053
  | (.prbGlb, _) => 0x0060 | (.lnkGlb, _) => 0x0061 | (.lnkLsn, _) => 0x0062 | (.lnkTx, _) => 0x0063
  | (.ext, _) => 0x0070 | (.monGlb, _) => 0x0080 | (.monSeq, _) => 0x0081 | (.monRes, _) => 0x0082
  | (.monCorr, _) => 0x0083 | (.pwrGlb, _) => 0x0090 | (.thmGlb, _) => 0x0091 | (.thmSegw, _) => 0x0092
  | (.hostGlb, _) => 0x00A0 | (.ring, _) => 0x00A1 | (.dma, _) => 0x00A2 | (.cap, _) => 0x00A3 | (.gq, _) => 0x00A4
  | (.fltGlb, _) => 0x00B0 | (.fltSrc, _) => 0x00B1 | (.talGlb, _) => 0x00C0 | (.talSnap, _) => 0x00C1
  | (.talRead, _) => 0x00C2 | (.grn, _) => 0x00C3 | (.boot, _) => 0x00D0 | (.img, _) => 0x00D1 | (.trust, _) => 0x00D2
  | (.wvl, _) => 0x00E0 | (.bwin, _) => 0x00F0 | (.seg, _) => 0x0100 | (.loop, _) => 0x0101 | (.queue, _) => 0x0110
  | _ => 0

/-- The instance that PAGE_ID shows: the index within the block (Table 15.1). -/
def instOf (page : Nat) : Nat :=
  match kindOf page with
  | (.conv, i) => i % 4
  | (_, i) => i

/-- Shift a row by the base of its block. -/
def RegRow.shift (r : RegRow) (b : Nat) : RegRow := { r with off := r.off + b }

/-- The rows of block `k` of a page of repeated blocks, for the block that holds the offset. -/
def blockRows (rows : List RegRow) (base size count off : Nat) : List RegRow :=
  if base ≤ off ∧ (off - base) / size < count then rows.map fun r => r.shift (base + (off - base) / size * size) else []

/-- The registers of a page that may hold the offset. A window's records belong to their own pages. -/
def rowsFor (page off : Nat) : List RegRow :=
  match (kindOf page).1 with
  | .ident => rowsIDENT | .glbMode => rowsMODE | .glbClk => rowsGCLK | .glbIrq => rowsIRQ
  | .prov => rowsPROV ++ blockRows rowsINJ 0x80 0x20 8 off
  | .loopGlb => rowsLGLB | .air => rowsAIR ++ rowsPAT | .port => rowsPORT | .dcf => rowsDCF | .conv => rowsCONV
  | .convGlb => rowsCGLB | .tx => rowsTX | .emk => rowsEMK | .npGlb => rowsNP | .npEsc => rowsESC
  | .npSegw => rowsNPS | .npGrpw => rowsGRP | .prbGlb => rowsPRB | .lnkGlb => rowsLNK | .lnkLsn => rowsLSN
  | .lnkTx => rowsLTX | .ext => rowsEXT | .monGlb => rowsMON | .monSeq => rowsMSEQ | .monRes => rowsMRES
  | .monCorr => rowsMCOR | .pwrGlb => rowsPWR | .thmGlb => rowsTHM | .thmSegw => rowsSHED | .hostGlb => rowsHOST
  | .ring => blockRows rowsRING 0x40 0x20 64 off | .dma => blockRows rowsDMA 0x40 0x40 16 off
  | .cap => blockRows rowsCAP 0x40 0x20 32 off | .gq => blockRows rowsQB 0x40 0x100 8 off
  | .queue => blockRows rowsQB 0x40 0x100 4 off
  | .fltGlb => rowsFLT | .fltSrc => rowsFSRC | .talGlb => rowsTAL | .talSnap => rowsSNAP | .talRead => rowsTRD
  | .grn => rowsGRN | .boot => rowsBOOT | .img => rowsIMG | .trust => rowsTRUST | .wvl => rowsWVL | .bwin => rowsBWIN
  | .seg => rowsSEG | .loop => rowsLOOP | .unoccupied => []
  | .npSeg => rowsNPS | .npGrp => rowsGRP | .shed => rowsSHED | .pattern => rowsPAT | .snap => rowsSNAP

/-- The row that holds the offset, if any. -/
def findRow : List RegRow → Nat → Option RegRow
  | [], _ => none
  | r :: rs, off =>
    if r.off ≤ off ∧ (off - r.off) % r.stride = 0 ∧ (off - r.off) / r.stride < r.count then some r else findRow rs off

/-- The register at an offset of a page; none where the offset is reserved. The reference registers lie in
`AIR[0]` alone (Table 5.12). -/
def rowAt (page off : Nat) : Option RegRow :=
  if (kindOf page).1 = .air ∧ page ≠ 0x10 ∧ 0xD0 ≤ off ∧ off ≤ 0xE0 then none
  else findRow (rowsFor page off) off

/-- The centre of a TDD slot's window at reset (Table 2.11 and the text after it), hertz. -/
def tddReset (s : PartSet) (slot : Nat) : Nat :=
  match s with
  | .A => if slot = 0 then 2593000000 else 3750000000
  | _ => if slot = 0 then 2350000000 else 3550000000

/-- The code of a band set. -/
def setCode : PartSet → Nat
  | .A => 0
  | .E => 1
  | .W => 2

/-- Reset word of ESC[c]: CLIMB, TRIM_MAX, SELF, TOP, START (Table 9.3, Table 9.9). Levels 0 to 4 are NONE to
RF_SILENT as Table 9.2 codes them. -/
def escReset (c : Nat) : Nat :=
  let w (climb trimMax self top start : Nat) := climb * 65536 + trimMax * 4096 + self * 2048 + top * 16 + start
  match c with
  | 0 => w 0 4 1 4 2
  | 1 => w 0 4 1 4 2
  | 2 => w 20 4 0 2 1
  | 3 => w 1000 4 0 2 1
  | 4 => w 100 4 0 2 1
  | 5 => w 20 4 0 3 1
  | 6 => w 0 4 0 2 2
  | 7 => w 0 0 0 2 2
  | 8 => w 0 0 0 2 2
  | _ => 0

/-- SHUT and THR of sensor i in 0.1 °C (Table 13.4). -/
def snsShut (g : Grade) (i : Nat) : Nat :=
  if i < 4 then 1450 else if i < 8 then 1100 else if i = 8 then 1150
  else if i = 9 then (match g with | .S => 850 | .X => 950) else 0x7FFF

def snsThr (g : Grade) (i : Nat) : Nat :=
  if i < 4 then 1250 else if i < 8 then 950 else if i = 8 then 1000
  else if i = 9 then (match g with | .S => 650 | .X => 750) else 700

/-- SUB_OFFS of zone z, 16-bit code (Table 13.8). -/
def zoneOffs (z : Nat) : Nat := if z < 4 then 400 else if z < 6 then 0 else if z = 6 then 250 else 0x10000 - 250

/-- EN and PRIO of a queue role at reset (Table 14.4), as Q_CFG bits. -/
def segQueueCfg (j : Nat) : Nat :=
  let prio := [3, 6, 2, 2, 3, 2, 4, 1, 0, 3, 1, 0, 1, 3, 1, 0].getD j 0
  let en := if j = 8 ∨ j = 11 ∨ j = 15 then 0 else 1
  en * 2147483648 + prio * 16777216

def globQueueCfg (g : Nat) : Nat :=
  2147483648 + [7, 1, 4, 4, 2, 5, 5, 2].getD g 0 * 16777216

/-- The monitor channels with a factory record (Table 12.1). -/
def factoryCorr (ch : Nat) : Bool :=
  decide (ch < 12) || decide (ch = 14) || decide (16 ≤ ch ∧ ch < 24) || decide (ch = 30)

/-- Reset values the tables give by part, port, index or another table; none where the register's own row
gives it. -/
def specialReset (pt : Part) (page off : Nat) : Option Nat :=
  match kindOf page with
  | (.ident, _) =>
    if off = 0x44 then some ((match pt.grade with | .S => 0 | .X => 16) + setCode pt.set)
    else if off = 0x48 then some (pt.serial % 2 ^ 32)
    else if off = 0x4C then some (pt.serial / 2 ^ 32 % 2 ^ 32)
    else if off = 0x50 then some (pt.board % 65536 * 65536 + pt.silicon % 65536)
    else if off = 0x54 then some (pt.mapRev % 2 ^ 32) else none
  | (.port, p) =>
    if off = 0x40 then some (0xDF * 256 + setCode pt.set * 4 + p)
    else if off = 0x54 then some (tddReset pt.set 0)
    else if off = 0x58 then some (tddReset pt.set 1) else none
  | (.conv, i) => if off = 0x40 then some (16 * 65536 + i / 4 * 16 + i % 4) else none
  | (.prbGlb, _) =>
    if 0x50 ≤ off ∧ off < 0x60 then
      some (Config.txNoise ((off - 0x50) / 4) % 65536 * 65536 + Config.rxNoise ((off - 0x50) / 4) % 65536) else none
  | (.npEsc, _) => if 0x40 ≤ off ∧ off < 0x68 then some (escReset ((off - 0x40) / 4)) else none
  | (.tx, p) =>
    if off = 0x48 then some (65536 + (if p < 2 then 0x294 else 0x35C))
    else if off = 0x4C then none
    else if off = 0x50 then some ((if p < 2 then 0x294 else 0x35C) * 65536 + 0x8000)
    else if off = 0x5C then some (Config.idqTarget p % 65536)
    else if 0x400 ≤ off ∧ off < 0x800 then some (if (off / 4) % 16 = 0 then 0x40000000 else 0) else none
  | (.monCorr, _) =>
    if 0x40 ≤ off ∧ off < 0xC0 then
      if factoryCorr ((off - 0x40) / 4) then
        some (Config.corrOffset ((off - 0x40) / 4) % 65536 * 65536 + Config.corrGain ((off - 0x40) / 4) % 65536)
      else some 0x8000
    else none
  | (.thmGlb, _) =>
    if 0x40 ≤ off ∧ off < 0x78 then some (if (off - 0x40) / 4 < 10 then 0x20 else 0x04)
    else if 0x80 ≤ off ∧ off < 0xB8 then
      some (snsShut pt.grade ((off - 0x80) / 4) * 65536 + snsThr pt.grade ((off - 0x80) / 4))
    else if 0xC0 ≤ off ∧ off < 0xE0 then some (zoneOffs ((off - 0xC0) / 4) * 65536) else none
  -- A new store's wear reserve: 100 % (DESIGN CHOICE, log entry 1).
  | (.grn, _) => if off = 0x40 then some 1000 else none
  | (.gq, _) =>
    if off < 0x40 then none
    else if (off - 0x40) % 0x100 = 0 then some (globQueueCfg ((off - 0x40) / 0x100))
    else if (off - 0x40) % 0x100 = 4 then some 131072 else none
  | (.queue, i) =>
    if off < 0x40 then none
    else if (off - 0x40) % 0x100 = 0 then some (segQueueCfg ((4 * i + (off - 0x40) / 0x100) % 16))
    else if (off - 0x40) % 0x100 = 4 then some 960 else none
  | _ => none

/-- The reset word of the register at a key: the page times 4,096 plus the offset. -/
def regReset (pt : Part) (key : Nat) : Word :=
  match rowAt (key / 4096) (key % 4096) with
  | none => 0
  | some r =>
    match specialReset pt (key / 4096) (key % 4096) with
    | some v => BitVec.ofNat 32 v
    | none => BitVec.ofNat 32 r.rst

/-- Bits of the register at a key that the Granary keeps, the calibration store's copy of MON_CORR among them. -/
def regGran (key : Nat) : Nat :=
  match rowAt (key / 4096) (key % 4096) with
  | none => 0
  | some r => if (kindOf (key / 4096)).1 = .monCorr then 4294967295 else r.gran

end Sys2Proof.Machine
end

