-- ==== Sys2Proof/Machine/Report.lean ====
section
/-!
DEFINITION. The data of the reporting plane: page headers, queues, rings, vectors, the fault collector and Tally.
-/

namespace Sys2Proof.Machine

/-- The common header of a page (Table 15.1): the fields that the page's own registers do not hold. -/
structure Hdr where
  enable : Bool
  lock : Bool
  error : Bool
  errOffs : Nat
  raw : Word
  mask : Word
  commitCnt : Nat
  refused : Bool
  pending : Bool
  readActive : Bool
deriving DecidableEq, Repr

/-- A header at reset (Table 15.1). -/
def hdr0 : Hdr where
  enable := true
  lock := false
  error := false
  errOffs := 0
  raw := 0
  mask := 0xFFFFFFFF
  commitCnt := 0
  refused := false
  pending := false
  readActive := false

/-- A queue item (Table 14.5): its header fields and its payload dwords from DW3 on. -/
structure Item where
  typ : Nat
  prio : Nat
  words : Nat
  seq : Nat
  ctx : Nat
  role : Nat
  stamp : Nat
  payload : List Nat
deriving DecidableEq, Repr

/-- A complete item held in a queue: the loop period and the place in the order in which items completed. -/
structure Held where
  item : Item
  done : Nat
  ord : Nat
  /-- Already counted by the injectors as a unit (R475). -/
  seen : Bool
deriving DecidableEq, Repr

/-- A queue (Table 14.15): its items oldest first, its sequence and its counters; `kept` is an item that an
injector holds (R477). -/
structure Queue where
  items : List Held
  kept : Option Held
  next : Nat
  lastDlv : Nat
  wmLatch : Bool
  overflow : Bool
  dropped : Nat
  flushed : Nat
  stray : Nat
  partials : Nat
deriving DecidableEq, Repr

def queue0 : Queue where
  items := []
  kept := none
  next := 0
  lastDlv := 0
  wmLatch := false
  overflow := false
  dropped := 0
  flushed := 0
  stray := 0
  partials := 0

/-- A ring's runtime (R370, R371): HEAD, TAIL, whether the moderation interval runs and whether a delivery
within it awaits its message. -/
structure Ring where
  head : Nat
  tail : Nat
  modRun : Bool
  modPend : Bool
deriving DecidableEq, Repr

def ring0 : Ring := ⟨0, 0, false, false⟩

/-- An MSI-X table entry with its pending bit (R358). -/
structure Msix where
  addr : Nat
  data : Nat
  masked : Bool
  pend : Bool
deriving DecidableEq, Repr

def msix0 : Msix := ⟨0, 0, true, false⟩

/-- The first-fault latch (R409). -/
structure FirstFault where
  valid : Bool
  overflow : Bool
  real : Bool
  forced : Bool
  cls : Nat
  source : Nat
  stamp : Nat
  cycle : Nat
  ovfCnt : Nat
deriving DecidableEq, Repr

def firstFault0 : FirstFault := ⟨false, false, false, false, 0, 0, 0, 0, 0⟩

/-- Counts of a fault source: EVENTS, FORCED, the stamp of its last event, and for sources 128 to 130 the loop
period of its last record (R407). -/
structure SrcCnt where
  events : Nat
  forced : Nat
  last : Nat
  rec10 : Option Nat
deriving DecidableEq, Repr

def srcCnt0 : SrcCnt := ⟨0, 0, 0, none⟩

/-- The fault collector (R404 to R414). -/
structure Collector where
  sticky : BitVec 256
  live : BitVec 256
  cnt : Table SrcCnt
  first : FirstFault
  silent : Bool
  /-- Sources whose DDR-5 region or agent is out of use (R406, R408). -/
  away : List Nat
deriving DecidableEq, Repr

def collector0 : Collector := ⟨0, 0, [], firstFault0, false, []⟩

/-- The FLAGS of a Tally record (Table 17.2). -/
structure TFlags where
  saturated : Bool
  continuation : Bool
  loss : Bool
  snapPartial : Bool
  forced : Bool
  pf : Bool
  wallBack : Bool
deriving DecidableEq, Repr

/-- A Tally record (Table 17.1). Its CRC is not held: `crcOk` says whether the stored one holds. -/
structure TRec where
  seq : Nat
  area : Nat
  flags : TFlags
  opSec : Nat
  pcyc : Nat
  frac : Nat
  wall : Nat
  code : Nat
  source : Nat
  rep : Nat
  cls : Nat
  snaps : List (Nat × Nat × Nat)
  crcOk : Bool
deriving DecidableEq, Repr

/-- A staged record; `taken` while a flush is writing it. -/
structure Staged where
  rcd : TRec
  taken : Bool
deriving DecidableEq, Repr

/-- The Tally recorder (R416 to R437): staging, clocks, the Granary's areas and marks, and requests in progress. -/
structure Tally where
  on : Bool
  staged : List Staged
  next : Nat
  flushing : Bool
  again : Bool
  pend : Nat
  pendRec : Option TRec
  loss : Bool
  lastWall : Nat
  dropped : Nat
  torn : Nat
  opSec : Nat
  pcyc : Nat
  opStuck : Bool
  pcStuck : Bool
  wall : Nat
  wallLo : Nat
  first : List TRec
  last : List TRec
  annex : List TRec
  cleanMark : Bool
  storedOps : Nat
  storedPcyc : Nat
  clearCnt : Nat
  erasing : Nat
  deferred : List (Nat × Bool × Bool)
  fetch : Option (Nat × Nat × Nat)
  exporting : Option (Nat × Nat × Nat × Bool)
  wearLow : Bool
deriving DecidableEq, Repr

/-- Tally as manufacture leaves it (R430): areas empty, a clean-stop mark stored, not yet staging. -/
def tally0 : Tally where
  on := false
  staged := []
  next := 0
  flushing := false
  again := false
  pend := 0
  pendRec := none
  loss := false
  lastWall := 0
  dropped := 0
  torn := 0
  opSec := 0
  pcyc := 0
  opStuck := false
  pcStuck := false
  wall := 0
  wallLo := 0
  first := []
  last := []
  annex := []
  cleanMark := true
  storedOps := 0
  storedPcyc := 0
  clearCnt := 0
  erasing := 0
  deferred := []
  fetch := none
  exporting := none
  wearLow := false

/-- An injector's runtime (R475 to R477): its state and counters, and the unit it holds. -/
structure Inj where
  state : Nat
  seen : Nat
  hits : Nat
  last : Nat
  lfsr : BitVec 16
  held : Option (List Nat)
  /-- The next unit overtakes the held one and is not counted (R477). -/
  skip : Bool
deriving DecidableEq, Repr

def inj0 : Inj := ⟨0, 0, 0, 0, 0, none, false⟩

/-- What the engine sends out: interrupt messages, writes into the master's memory, messages to heads and to
neighbours, second pulses, the means of monitor bursts, and what a command that reads returns. -/
inductive Out where
  | msix (vec : Nat)
  | agentIrq (vec : Nat)
  | memWrite (addr : Nat) (dwords : List Nat)
  | headMsg (link : Nat) (seq : Nat) (typ : Nat) (payload : List Nat)
  | headSwitch (link : Nat) (slot : Nat) (tx : Bool) (tick : Nat)
  | containers (link : Nat) (silent : Bool) (ids : List Nat)
  | descriptor (link : Nat) (up : Bool) (cont : Nat) (word : Nat)
  | extFrame (link : Nat) (header : Nat) (frag : List Nat)
  | linkFrame (slot : Nat) (sf : Nat) (dens : Int) (symbols : List Bool)
  | pps
  | burstMean (requester : Nat) (mean : Int)
  | readWord (page : Nat) (off : Nat) (value : Nat)
  | windowRead (addr : Nat) (bytes : List Byte)
deriving DecidableEq, Repr

/-- The reporting plane: nothing here shapes a signal, a gain or a mode. -/
structure Rep where
  hdr : Table Hdr
  queues : Table Queue
  ord : Nat
  storeUsed : Nat
  storeDropped : Nat
  rings : Table Ring
  msix : Table Msix
  msixEn : Bool
  msixMask : Bool
  errValid : Bool
  errPage : Nat
  errCnt : Nat
  flt : Collector
  tally : Tally
  inj : Table Inj
  out : List Out
deriving DecidableEq, Repr

def rep0 : Rep where
  hdr := []
  queues := []
  ord := 0
  storeUsed := 0
  storeDropped := 0
  rings := []
  msix := []
  msixEn := false
  msixMask := false
  errValid := false
  errPage := 0
  errCnt := 0
  flt := collector0
  tally := tally0
  inj := []
  out := []

end Sys2Proof.Machine
end

