-- ==== Sys2Proof/Machine/Types.lean ====
section
/-!
DEFINITION. The engine's typed state beside its registers: modes, start-up, trust, segments, clocks, loops and
the other blocks' runtime.
-/

namespace Sys2Proof.Machine

/-- The modes (Table 0.4). -/
inductive Mode where
  | start
  | service
  | test
  | recovery
  | safe
deriving DecidableEq, Repr

/-- The mode's code (Table 0.4). -/
def modeCode : Mode → Nat
  | .start => 0
  | .service => 1
  | .test => 2
  | .recovery => 3
  | .safe => 4

/-- The supply (R337, R342): waiting for the start threshold, running, or in the power-fail sequence. -/
inductive Supply where
  | waiting
  | on
deriving DecidableEq, Repr

/-- Where a start attempt stands (R438 to R446). -/
inductive BootPhase where
  /-- Not started: the start threshold has not been met. -/
  | idle
  /-- A start step runs. -/
  | step
  /-- MONITOR has passed and the engine waits for the master (R439). -/
  | waitMaster
  /-- ISO_SURVEY's survey, and its gain ramp (R442). -/
  | survey
  | ramp
  /-- A failed attempt waits for its retry at RAILS or at ROM (R443). -/
  | retryRails
  | retryRom
  /-- SERVICE has been reached, or the attempt ended in SAFE. -/
  | done
  | ended
deriving DecidableEq, Repr

/-- A boot journal entry (Table 18.3). -/
structure JEntry where
  attempt : Nat
  startCause : Nat
  step : Nat
  result : Nat
  cause : Nat
  alt : Nat
  slot : Nat
  opSec : Nat
  duration : Nat
deriving DecidableEq, Repr

/-- The start-up machine (R438 to R448). `journal` is newest first; `railsFails` is the supply controller's count
(R446). -/
structure Boot where
  phase : BootPhase
  startCause : Nat
  entryOpen : Bool
  journal : List JEntry
  attempts : Nat
  railsFails : Nat
  slot : Nat
  /-- The slot whose image failed last (R444). -/
  badSlot : Nat
  clrAlt : Bool
  /-- Cluster 31 has taken a workload over since the start (R29). -/
  spent : Bool
  /-- The last step passed in the attempt in hand; the loop periods in which the attempt and its step began. -/
  passed : Nat
  start : Nat
  stepStart : Nat
deriving DecidableEq, Repr

def boot0 : Boot where
  phase := .idle
  startCause := 0
  entryOpen := false
  journal := []
  attempts := 0
  railsFails := 0
  slot := 0
  badSlot := 0
  clrAlt := false
  spent := false
  passed := 0
  start := 0
  stepStart := 0

/-- An image slot as the Granary holds it (R449 to R452). -/
structure ImgSlot where
  version : Nat
  svn : Nat
  valid : Bool
  bad : Bool
deriving DecidableEq, Repr

/-- A public key: its signature type (Table 18.7) and its 68 bytes as 17 dwords. -/
structure PubKey where
  sigType : Nat
  dwords : List Nat
deriving DecidableEq, Repr

/-- The trust store and the requests of the start-up and trust pages (R451 to R460). -/
structure Trust where
  slotA : ImgSlot
  slotB : ImgSlot
  pref : Nat
  running : Option Nat
  imgKeys : List PubKey
  opKeys : Table (Option PubKey)
  attKey : Option PubKey
  minSvn : Nat
  tokenCnt : Nat
  /-- A held token: action, argument, seconds left (R459). -/
  held : Option (Nat × Nat × Nat)
  heldKey : Nat
  attNext : Nat
  attRes : Nat
  /-- The clean index record (R454). -/
  attRecord : Option Nat
  attLow : Bool
  /-- An install in progress: slot, version, SVN, make preferred. -/
  install : Option (Nat × Nat × Nat × Bool)
  nodeId : Nat
deriving DecidableEq, Repr

def trust0 : Trust where
  slotA := ⟨0, 0, true, false⟩
  slotB := ⟨0, 0, false, false⟩
  pref := 0
  running := none
  imgKeys := []
  opKeys := []
  attKey := none
  minSvn := 0
  tokenCnt := 0
  held := none
  heldKey := 0
  attNext := 0
  attRes := 0
  attRecord := none
  attLow := false
  install := none
  nodeId := 0

/-- How long the DC blocker's estimate stays held around a switching action (R91): not held, held until the switch reports
its new state, then for so many segment samples more. -/
inductive Turn where
  | none
  | moving
  | tail (left : Nat)
deriving DecidableEq, Repr

/-- A segment's runtime beside its registers (R79 to R112). -/
structure Seg where
  /-- The deactivation ramp runs (R103). -/
  deact : Bool
  /-- A synchronizing reset is requested for the next boundary (R103). -/
  syncReq : Bool
  /-- A link of a head input branch has returned to RUNNING (R316). -/
  headSync : Bool
  /-- Tables written since the last commit: coefficients, probe mask, canceller, SHIFT, and the LOOP page's sets (R105,
  R149). -/
  wroteCoef : Bool
  wroteMask : Bool
  wroteCanc : Bool
  wroteShift : Bool
  wroteSets : Bool
  /-- Offsets of the SEG and of the LOOP page written into the shadow while it is being copied (R105). -/
  keepWords : List Nat
  keepSets : List Nat
  /-- An invalid run is in progress, and its length (R104). -/
  inv : Bool
  ninv : Nat
  /-- The gate of a TDD segment is closed (R95, R142). -/
  gated : Bool
  /-- A cap below 0 dB mutes the segment (R152). -/
  capMute : Bool
  /-- The estimate of the DC blocker is held around a switching action (R91). -/
  turn : Turn
  /-- Since the last latch some sample may have been unused by the level detectors; and, as of that latch, an invalid run
  or a closed gate that takes more than half of the period (R96). -/
  dirty : Bool
  lowInv : Bool
  lowGate : Bool
  /-- Branches and filter-bank positions the segment holds until its ramp ends (R40, R43, R45). -/
  held : List (Nat × Nat)
  /-- Tone windows in a row at or above the threshold (R247). -/
  toneRun : Nat
  /-- The tone window in progress began under an action at MUTE or above (R255), or holds an INV or gated sample; a new
  OFFSET waits for its end (R97). -/
  toneSkip : Bool
  toneBad : Bool
  toneNew : Bool
deriving DecidableEq, Repr

def seg0 : Seg where
  deact := false
  syncReq := false
  headSync := false
  wroteCoef := false
  wroteMask := false
  wroteCanc := false
  wroteShift := false
  wroteSets := false
  keepWords := []
  keepSets := []
  inv := false
  ninv := 0
  gated := false
  capMute := false
  turn := .none
  dirty := true
  lowInv := false
  lowGate := false
  held := []
  toneRun := 0
  toneSkip := false
  toneBad := false
  toneNew := false

/-- A coefficient set in force (Table 6.2). -/
structure Coefs where
  kp : Nat
  ki : Nat
  kd : Nat
  alpha : Nat
  wff : Nat
deriving DecidableEq, Repr

/-- The fields of a LOOP page as latched at phase 0.00 µs (R146, R148): levels in level units. -/
structure LoopCfg where
  auto : Bool
  track : Bool
  feEn : Bool
  spSrc : Nat
  sp : Int
  spLo : Int
  spHi : Int
  offs : Int
  rate : Nat
  man : Nat
  floor : Nat
  up : Nat
  dn : Nat
  th1 : Int
  th2 : Int
  th3 : Int
  hyst : Nat
  mTh : Nat
  mHyst : Nat
  feLimit : Nat
  feTime : Nat
  sets : List Coefs
deriving DecidableEq, Repr

/-- What a context latches at phase 0.00 µs beside its page: the six cap sources, the levels, the holds (bit j is
bit 16 + j of LOOP_STAT), the set-point sources and the dither. -/
structure Latched where
  cfg : LoopCfg
  srcs : List Int
  inL : Int
  outL : Int
  hold : Nat
  /-- Corrected results of AIN0 and AIN1, and SP_PWM's duty in 0.01 % with its period in µs. -/
  ain0 : Option Int
  ain1 : Option Int
  pwm : Option (Nat × Nat)
  /-- The gain in force of TRACK_SEG, where that is an active downlink segment. -/
  dl : Option Int
  dith : Int
deriving DecidableEq, Repr

/-- The result of a context's evaluation, published at phase 25.00 µs (R146, R148): the terms are in units of 2^-16
of a level unit, `events` are INT_RAW bits. -/
structure LoopRes where
  run : Bool
  gain : Int
  cap : Int
  src : Nat
  srcs : List Int
  hold : Nat
  set : Nat
  target : Int
  spe : Int
  inL : Int
  outL : Int
  e : Int
  ff : Int
  p : Int
  d : Int
  u : Int
  satHi : Bool
  satLo : Bool
  pend : Bool
  spIn : Nat × Nat
  swapped : Bool
  faulted : Bool
  events : List Nat
  /-- The gain copied into MAN_GAIN by a transfer of this period (R164). -/
  copy : Option Int
deriving DecidableEq, Repr

def loopRes0 : LoopRes where
  run := false
  gain := 0
  cap := 0
  src := 0
  srcs := [0, 0, 2200, 2200, 2200, 2200]
  hold := 1
  set := 0
  target := 0
  spe := 0
  inL := -32768
  outL := -32768
  e := 0
  ff := 0
  p := 0
  d := 0
  u := 0
  satHi := false
  satLo := false
  pend := false
  spIn := (0, 0)
  swapped := false
  faulted := false
  events := []
  copy := none

/-- A gain loop's context (R150 to R173). `integ`, `yf` and `spr` are in units of 2^-16 of a level unit. -/
structure Ctx where
  /-- The gain register. -/
  gain : Int
  integ : Int
  /-- Unset after activation and after a hold: it is then taken as the latched OUT (R170, R172). -/
  yf : Option Int
  spr : Int
  /-- Region, undetermined together with the class until the first period with valid levels (R172). -/
  region : Option Nat
  tight : Bool
  /-- The coefficients used in the previous period (R161). -/
  used : Option Coefs
  /-- The mode in effect: true is AUTO. -/
  auto : Bool
  /-- The target last valid, and G_dl + TRACK_OFFS last valid (R166). -/
  target : Int
  dlHold : Int
  spFault : Bool
  feCount : Nat
  feGain : Int
  feOut : Int
  feActive : Bool
  feRise : Bool
  /-- Latched and not yet evaluated. -/
  cur : Option Latched
  /-- Evaluated and not yet published, and the result last evaluated. -/
  due : Bool
  res : LoopRes
deriving DecidableEq, Repr

def ctx0 : Ctx where
  gain := 0
  integ := 0
  yf := none
  spr := 0
  region := none
  tight := false
  used := none
  auto := false
  target := 0
  dlHold := 0
  spFault := false
  feCount := 0
  feGain := 0
  feOut := 0
  feActive := false
  feRise := false
  cur := none
  due := false
  res := loopRes0

/-- An air clock's runtime (R115 to R143). -/
structure Air where
  /-- SFN read from the air, loaded at the next boundary (R121). -/
  pendFrame : Option Nat
  /-- Consecutive LOCKED frames (R131); `lostMode` while the mute of R130 stands. -/
  lockedRun : Nat
  lostMode : Bool
  /-- The segments whose mute of R130 has lifted already, at the start of their own pattern period (R131). -/
  lifted : List Nat
  /-- GSM: the 10 ms frame number without modulus, 12 x multiframe + k, of the next boundary (R122). -/
  gsm : Option Nat
  /-- A source change returned the clock to SEARCH (R116): its next lock is a relock from LOST. -/
  srcChange : Bool
  /-- Phase error still to be removed, at most one air tick a frame (R128). -/
  slew : Int
  /-- The gating of a timing step stands (R129). -/
  stepGate : Bool
  /-- Tables written since the last commit: actions, and the segments' pattern records (R136). -/
  wroteAct : Bool
  wrotePat : List Nat
  /-- Segments whose record is held through this clock's window (R137). -/
  patSegs : List Nat
  /-- Once actions already run since their commit (Table 5.4). -/
  onceRun : List Nat
  /-- Actions that have run in the frame in progress, in the frame before, and, where a step has crossed a boundary
  backwards, after that boundary: none of them runs again in repeated ticks (R129). -/
  ran : List Nat
  ranPrev : List Nat
  ranNext : List Nat
  /-- Air ticks since the latest boundary, as of the latest latch, boundary or step; and the air ticks between the latch
  before that boundary and the boundary. -/
  tick : Nat
  edge : Nat
  /-- The pattern phase at the first load: 0, or 307,200 air ticks (R139). -/
  patPhase : Nat
deriving DecidableEq, Repr

def air0 : Air where
  pendFrame := none
  lockedRun := 0
  lostMode := false
  lifted := []
  gsm := none
  srcChange := false
  slew := 0
  stepGate := false
  wroteAct := false
  wrotePat := []
  patSegs := []
  onceRun := []
  ran := []
  ranPrev := []
  ranNext := []
  tick := 0
  edge := 0
  patPhase := 0

/-- The scheduler: actions in one device tick and those that it defers, oldest first (R133), the air ticks between a commit
request and the next boundary where they are fewer than a frame, by page (R135, R304), the open measurement windows (Table
5.5), and by clock and index the actions under REF 1 whose switching action has come (Table 5.4). -/
structure Sched where
  tick : Nat
  ran : Nat
  deferred : List (Nat × Nat × ActInput)
  late : Table Nat
  windows : List Nat
  armed : List (Nat × Nat)
deriving DecidableEq, Repr

/-- A T/R switch (R46 to R48): the state it moves to, the transmit mute, and what its pattern asks for, transmit where
`sched`. -/
structure Switch where
  target : Option Bool
  mute : Bool
  sched : Bool
deriving DecidableEq, Repr

/-- At reset a switch is held in receive with its transmit path muted (R47). -/
def switch0 : Switch := ⟨none, true, false⟩

/-- A control fragment not yet acknowledged (R308): its SEQ, its data, its resends, and the loop period in which it went out
last; `none` while it waits for its frame. -/
structure Frag where
  seq : Nat
  data : List Nat
  resends : Nat
  sent : Option Nat
deriving DecidableEq, Repr

/-- What the injectors make of a row of a container (Table 20.2): zero samples, a mask XORed into each sample, or an exchange with
the next row. -/
inductive RowAct where
  | drop
  | mask (m : Nat)
  | swap
deriving DecidableEq, Repr

/-- An extension link's runtime beside its registers (R297 to R316). -/
structure Ext where
  /-- The accepted capability record, 48 words; empty where none is. -/
  caps : List Nat
  /-- Containers: upstream, index, segment, branch code (R303). -/
  conts : List (Bool × Nat × Nat × Nat)
  /-- The rows of the latest frame that an injector hit: upstream, container, row among those that carry its samples (R477). -/
  rowActs : List (Bool × Nat × Nat × RowAct)
  /-- The superframe phase the link adopted (R297). -/
  sf : Nat
  /-- FRAME, HYPER and TICK of air clock 0 at the start of the superframe (R297), and the switching events of the next frame
  (Table 11.2). -/
  sfTime : Nat × Nat × Nat
  events : List Nat
  /-- Both receivers' frame lock: the head's is told by the harness of the link. -/
  headLock : Bool
  /-- Consecutive markers at their positions, and consecutive missing markers (R299). -/
  marks : Nat
  missed : Nat
  /-- Control channel (R308): next SEQ, the fragments not acknowledged, the SEQ of the last fragment received in order, and
  the message being received. -/
  nextSeq : Nat
  unacked : List Frag
  rxSeq : Option Nat
  rxMsg : List Nat
  /-- ECHO_TIME's value of the last frame 0, RTTs of the last 16 superframes, newest first, and superframes at or
  below 99.00 µs (R313, R314). -/
  tHead : Option Nat
  rtts : List Int
  calm : Nat
  /-- The head's STATUS by branch: forward power, return loss, over-range events (R308). -/
  status : List (Nat × Nat × Nat)
deriving DecidableEq, Repr

def ext0 : Ext where
  caps := []
  conts := []
  rowActs := []
  sf := 0
  sfTime := (0, 0, 0)
  events := []
  headLock := false
  marks := 0
  missed := 0
  nextSeq := 0
  unacked := []
  rxSeq := none
  rxMsg := []
  tHead := none
  rtts := []
  calm := 0
  status := []

/-- Trace and dither (R174 to R179). -/
structure Trace where
  /-- Trace entries by 4,096 x channel + index, and the response buffer's. -/
  bufs : Table Nat
  resp : Table Nat
  /-- The next index, the entries since ARM, and the further entries to record after the trigger. -/
  pos : Nat
  total : Nat
  left : Nat
  /-- The dither's context, amplitude and half-period less 1 as they stood at START, and the periods it has acted in;
  `on` from its first latch. -/
  ctx : Nat
  amp : Nat
  half : Nat
  ran : Nat
  on : Bool
deriving DecidableEq, Repr

def trace0 : Trace := ⟨[], [], 0, 0, 0, 0, 0, 0, 0, false⟩

/-- A protection condition on one target (R246 to R263). Times are in operating seconds. -/
structure Cond where
  present : Bool
  /-- Raised in a mode in which conditions do not act (R259): it is raised once the mode permits. -/
  wait : Bool
  level : Nat
  steps : Nat
  tries : Nat
  latched : Bool
  /-- Loop periods left of a back-off and of a watch, and the one in which the present step took effect (R252, R256, R257). -/
  backoff : Option Nat
  watch : Option Nat
  step : Nat
  /-- A restart is due, or a release under R258, at the next latch. -/
  due : Bool
  rel : Bool
  /-- Level and steps held before the restart (R257). -/
  hLevel : Nat
  hSteps : Nat
deriving DecidableEq, Repr

def cond0 : Cond where
  present := false
  wait := false
  level := 0
  steps := 0
  tries := 0
  latched := false
  backoff := none
  watch := none
  step := 0
  due := false
  rel := false
  hLevel := 0
  hSteps := 0

/-- A protection event waiting for its place in the latch's order (R246, R261). Target kinds: 0 segment, 1 port,
2 branch, 3 module. -/
structure NpEv where
  cls : Nat
  code : Nat
  kind : Nat
  idx : Nat
  event : Nat
  level : Nat
  tries : Nat
  steps : Nat
deriving DecidableEq, Repr

/-- A reference gain taken when steps first leave 0 (R21, R340): not taken, waiting for the gain of the loop period,
or taken. -/
inductive GainRef where
  | none
  | wait
  | at (g : Int)
deriving DecidableEq, Repr

/-- A path loss: its value, the loop period of its measurement, since when it is held, and whether it was replaced by
PL_MIN since (R266). -/
structure PathLoss where
  loss : Int
  time : Nat
  held : Option Nat
  expired : Bool
deriving DecidableEq, Repr

/-- Network protection's runtime. `conds` is keyed by code and target, `ops` holds OPERATOR_OFF by segment, by
1,024 plus branch, and 2,048 for the module. -/
structure Np where
  conds : Table Cond
  ops : Table Nat
  cmds : List (Nat × Nat × Nat × Nat × Nat)
  evs : List NpEv
  refs : Table GainRef
  /-- Over-range events of each donor ADC: the loop periods they fell in (R249). -/
  ovl : Table (List Nat)
  /-- Consecutive periods above OVL_LEVEL (R249). -/
  ovlRun : Table Nat
  /-- Path loss of a group at a donor port, keyed 4 x group + port (R264, R266). -/
  pl : Table (Option PathLoss)
  /-- Idle drop in force, active symbols pending, symbols in the slot (R268). -/
  idle : List Nat
  slotSyms : Table Nat
  slotActive : List Nat
  /-- The last loop period in which a cause of DONOR_OVERLOAD held on a segment (R249), and since when its noise-rise
  contribution has stayed low enough to end NOISE_RISE (R271). -/
  ovlLast : Table Nat
  nrLow : Table (Option Nat)
  /-- The groups whose VALID or HELD reads 1, and the words of windowed registers written since the last latch, as they were at
  it: the engine uses those (R272). -/
  grps : List Nat
  late : Table Word
deriving DecidableEq, Repr

def np0 : Np where
  conds := []
  ops := []
  cmds := []
  evs := []
  refs := []
  ovl := []
  ovlRun := []
  pl := []
  idle := []
  slotSyms := []
  slotActive := []
  ovlLast := []
  nrLow := []
  grps := []
  late := []

/-- A transmit chain beside its registers (R275 to R291). Counts are of consecutive measurements. -/
structure Chain where
  drain : Bool
  gate : Bool
  rf : Bool
  /-- 0 no load stop, 1 LOAD_OFF, 2 LOAD_LATCHED (R283). -/
  load : Nat
  lowRun : Nat
  clearRun : Nat
  tripRun : Nat
  boNext : Nat
  fwd : Int
  mismatchRun : Nat
  matchRun : Nat
  cleanRun : Nat
  emission : Bool
  sweeping : Bool
  /-- The last capture's NMSE, the coefficients before the last update, whether that update awaits its check, and
  the set that takes effect at the next permitted latch with whether it is a revert (R286, R287). -/
  nmse : Option Int
  before : List Nat
  judged : Bool
  next : Option (List Nat × Bool)
  /-- The loop period from which `next` may take effect (R287), and the one in which STATE was last entered (R283). -/
  nextAt : Nat
  since : Nat
  /-- The mean of the chain's last burst of quiescent current, in monitor code units (R280, R328). -/
  idq : Option Int
deriving DecidableEq, Repr

def chain0 : Chain where
  drain := false
  gate := false
  rf := false
  load := 0
  lowRun := 0
  clearRun := 0
  tripRun := 0
  boNext := 0
  fwd := -32768
  mismatchRun := 0
  matchRun := 0
  cleanRun := 0
  emission := false
  sweeping := false
  nmse := none
  before := []
  judged := false
  next := none
  nextAt := 0
  since := 0
  idq := none

/-- What the next due update applies (R202, R203, R205): the candidate, the combined own response within the window as
128 (I, Q) with its scale, and a move to a bulk delay with the candidate against the loaded taps; `due` is its latch. An
estimate that left an added branch out has no candidate. -/
structure IsoUpd where
  due : Nat
  cand : Option Int
  taps : Option (List (Int × Int) × Nat)
  move : Option (Nat × Int)
deriving DecidableEq, Repr

/-- A segment's isolation measurement beside its registers (R194 to R208). -/
structure Iso where
  /-- Segment samples since the probe's code began, at the last latch (R188), and where in them the estimate in progress began
  or, after a discard, the next one begins (R194). -/
  phase : Nat
  began : Nat
  /-- The loop period of the last discard (R209, R218), and ρ of each output branch at the last phase 25.00 µs (R189). -/
  cut : Nat
  dens : List Int
  /-- Output branches added during the estimate in progress: VALID waits for one that began after (R197). -/
  added : List Nat
  /-- Candidate of the estimate before (R205). -/
  cPrev : Int
  /-- E_H of the last completed estimate (R206), the ISO it gave (R196), and its loop period. -/
  eH : Nat
  prev : Option Int
  time : Option Nat
  seq : Nat
  upd : Option IsoUpd
  /-- Consecutive detected estimates that found a better window (R203). -/
  better : Nat
  /-- A failed guard window waits for its latch with the isolation it found (R206). -/
  guard : Option (Nat × Int)
  /-- Input branch and span at the last deactivation, as twice its edges (R198). -/
  was : Option (Nat × Int × Int)
  /-- Impulse responses kept, newest first: sequence, reference, taps by branch (R196). -/
  ir : List (Nat × Int × List (Nat × List Nat))
deriving DecidableEq, Repr

def iso0 : Iso where
  phase := 0
  began := 0
  cut := 0
  dens := []
  added := []
  cPrev := 0
  eH := 0
  prev := none
  time := none
  seq := 0
  upd := none
  better := 0
  guard := none
  was := none
  ir := []

/-- A DMA channel's runtime is in its registers; a capture channel keeps its stream's blocks (R383): filled blocks
oldest first, the next block, its sequence, samples discarded since the block before, bytes written. -/
structure CapCh where
  filled : List Nat
  next : Nat
  seq : Nat
  lost : Nat
  bytes : Nat
deriving DecidableEq, Repr

def capCh0 : CapCh := ⟨[], 0, 0, 0, 0⟩

/-- The converters' runtime (R65 to R71). -/
structure Conv where
  /-- Converters under foreground calibration with the state each had before, and whether all twelve were asked. -/
  running : List (Nat × Nat)
  all : Bool
  /-- A save is requested and waits for a calibration (R70). -/
  saveWait : Bool
  /-- Consecutive updates with no move above 0.001 dB, by converter (R68). -/
  quiet : Table Nat
  /-- The converters whose spur has stayed above its limit (R71). -/
  spur : List Nat
  /-- The two stored copies: which is newer, whether each copy's CRC is good, and the sets they hold by converter, none
  where a converter had no corrections to save (R69). -/
  newer : Bool
  validA : Bool
  validB : Bool
  setsA : Table (Option (List SubCorr))
  setsB : Table (Option (List SubCorr))
  /-- The corrections in force, of 16 sub-converters, by converter; those a save in progress writes; and whether some
  calibration has passed since the last one of all that ran together ended (R65 to R70). -/
  corr : Table (List SubCorr)
  saving : Table (Option (List SubCorr))
  passed : Bool
  /-- A converter's over-range run and the samples left of its recovery (R63), and a DAC's clipped run (R64). -/
  overIn : List Nat
  recov : Table Nat
deriving DecidableEq, Repr

def conv0 : Conv where
  running := []
  all := false
  saveWait := false
  quiet := []
  spur := []
  newer := false
  validA := false
  validB := false
  setsA := []
  setsB := []
  corr := []
  saving := []
  passed := false
  overIn := []
  recov := []

/-- No correction at all: what a converter applies before any calibration (DESIGN CHOICE, log entry 68). -/
def corr0 : List SubCorr := List.replicate 16 ⟨0, 0, 0, 0⟩

/-- What the Granary holds of a DC feed beside its registers (R56): the stored words of DCF_CTRL, DCF_ILIM and DCF_OPEN, none
where the factory values stand, and since when they differ from the registers. -/
structure Feed where
  stored : Option (List Word)
  since : Option Nat
deriving DecidableEq, Repr

def feed0 : Feed := ⟨none, none⟩

/-- A temperature sensor beside its registers (R344 to R351): its last raw readings, newest first, its filtered
reading, the consecutive valid readings, the readings since its count changed (50 make 5 s), and the segments it has
shed, newest last. -/
structure Sensor where
  raw : List Int
  filt : Int
  validRun : Nat
  dwell : Nat
  shed : List Nat
deriving DecidableEq, Repr

def sensor0 : Sensor := ⟨[], 0, 0, 50, []⟩

/-- Power, hold-up store and thermal runtime (R337 to R352). -/
structure Pwr where
  /-- The segments shed by the cap, newest last; seconds since the cap's last change; consecutive comparisons at or
  below CAP − 10 W. -/
  shedCap : List Nat
  sinceChange : Nat
  underRun : Nat
  sensors : Table Sensor
  /-- 100 ms readings for which a shut zone has stayed cool (R350). -/
  cool : Table Nat
  /-- Reference gains of cap source 4 (R340). -/
  refs : Table GainRef
deriving DecidableEq, Repr

def pwr0 : Pwr where
  shedCap := []
  sinceChange := 5
  underRun := 0
  sensors := []
  cool := []
  refs := []

end Sys2Proof.Machine
end

