-- ==== Sys2Proof/Machine/LinkTypes.lean ====
section
/-!
DEFINITION. The data of the Cricket link and the repeater fabric (R213 to R245).
-/

namespace Sys2Proof.Machine

/-- A span entry of a HELLO (Table 8.5). -/
structure Span where
  centre : Nat
  rate : Nat
  dir : Nat
  len : Nat
  dens : Int
  gf : Int
deriving DecidableEq, Repr

/-- A report entry of a COUPLING_REPORT (Table 8.5). -/
structure NbRep where
  centre : Nat
  dir : Nat
  bound : Bool
  cIn : Int
  gf : Int
deriving DecidableEq, Repr

/-- A pair of neighbour entry and listening slot (R237 to R240). Instants are device loop periods. -/
structure NbPair where
  cIn : Option Int
  boundIn : Bool
  lp : Option Int
  /-- The cap in force K, and the yield owed to the neighbour. -/
  k : Int
  yOwn : Int
  owe : Bool
  /-- Since when every evaluation has found T ≥ K + RELEASE_HYST (R239), and LP − Y above its bound (R240). -/
  rise : Option Nat
  past : Option Nat
  /-- The pair holds LOOP_NEIGHBOUR raised. -/
  raised : Bool
  /-- Since when the estimate in progress runs, as far as the pair itself goes (R218). -/
  since : Nat
deriving DecidableEq, Repr

def nbPair0 : NbPair where
  cIn := none
  boundIn := false
  lp := none
  k := 2200
  yOwn := 0
  owe := false
  rise := none
  past := none
  raised := false
  since := 0

/-- Neighbour states (Table 8.8). -/
def nbEMPTY : Nat := 0
def nbNEW : Nat := 1
def nbACTIVE : Nat := 2
def nbSTALE : Nat := 3

/-- A neighbour entry (R235): `seqs` are the last eight sequence numbers accepted, newest first. -/
structure Nb where
  id : Nat
  state : Nat
  pin : Bool
  noAck : Bool
  heard : Option Nat
  report : Option Nat
  spans : List Span
  reps : List NbRep
  /-- Yields reported by the neighbour, as (CENTRE, DIR, Y). -/
  yields : List (Nat × Nat × Int)
  seqs : List Nat
  pairs : Table NbPair
deriving DecidableEq, Repr

def nb0 : Nb := ⟨0, 0, false, false, none, none, [], [], [], [], []⟩

/-- Message types (Table 8.4). -/
def mHELLO : Nat := 1
def mREPORT : Nat := 2
def mYIELD : Nat := 3
def mACK : Nat := 4

/-- A message: its type, addressee, sequence number and payload bytes, SEQ among them; the talking slots it has been
sent on, how often it has been repeated, and when its last transmission ended. -/
structure Msg where
  typ : Nat
  dst : Nat
  seq : Nat
  bytes : List Nat
  sent : List Nat
  tries : Nat
  last : Nat
deriving DecidableEq, Repr

/-- A detection: SF code, S, chip lag of its code timing, and the loop period it fell in. -/
structure Det where
  sf : Nat
  s : Int
  lag : Nat
  time : Nat
deriving DecidableEq, Repr

/-- A reception on a listening slot (R226 to R232): its state, SF code, S and code timing, the header once decoded as (TYPE,
LEN, SRC, DST), and the detections ignored, newest first. -/
structure Rx where
  state : Nat
  sf : Nat
  s : Int
  lag : Nat
  hdr : Option (Nat × Nat × Nat × Nat)
  keep : List Det
deriving DecidableEq, Repr

def rx0 : Rx := ⟨0, 0, 0, 0, none, []⟩

/-- A talking slot (R216, R221 to R224). -/
structure Talk where
  /-- The frame in progress, and whether its chips are on the branch. -/
  msg : Option Msg
  chips : Bool
  /-- The frame's symbols, one to a code period, and the segment sample, counted as the probe's code phase is, of its first
  chip (R219, R221). -/
  syms : List Bool
  first : Nat
  /-- The span, as twice its edges, on which the frame makes listening slots DEAF. -/
  span : Option (Int × Int)
  /-- Since when the slot waits with a frame to send; its backoff as the SEQ of its message and the segment sample, counted as
  the probe's code phase is, at which the frame starts. -/
  wait : Option Nat
  back : Option (Nat × Nat)
  /-- Where the probe runs again after a frame: segment, branch and segment sample. -/
  resume : Option (Nat × Nat × Nat)
deriving DecidableEq, Repr

def talk0 : Talk := ⟨none, false, [], 0, none, none, none, none⟩

/-- Reception states (Table 8.9). -/
def rxSEARCH : Nat := 0
def rxSYNC : Nat := 1
def rxHEADER : Nat := 2
def rxPAYLOAD : Nat := 3
def rxDEAF : Nat := 4
def rxOFF : Nat := 5

/-- A frame handed to the message rules: listening slot, SF code, type, source and payload bytes. -/
structure RxFrame where
  slot : Nat
  sf : Nat
  typ : Nat
  src : Nat
  bytes : List Nat
deriving DecidableEq, Repr

/-- The link: neighbour entries by index, receptions by slot, pending messages in order of creation, the talking slots, the
GAIN_YIELDs that await an ACK, frames handed to the message rules, frames an injector holds
by slot (to send, with whether it is free to go; received, with its CRC), a TLK_CFG write that waits for the frame's end, and the listening slot the next HELLO begins with. -/
structure Lnk where
  nbs : Table Nb
  rx : Table Rx
  txq : List Msg
  talk : Table Talk
  acks : List Msg
  frames : List RxFrame
  heldTx : Table (Option (Msg × Bool))
  heldRx : Table (Option (RxFrame × Bool))
  cfgWait : Table (Option Word)
  turn : Nat
deriving DecidableEq, Repr

def lnk0 : Lnk := ⟨[], [], [], [], [], [], [], [], [], 0⟩

end Sys2Proof.Machine
end

