-- ==== Sys2Proof/Machine/MonTypes.lean ====
section
/-!
DEFINITION. The data of the monitor converters (R319 to R335).
-/

namespace Sys2Proof.Machine

/-- Who has the conversion in progress: nobody, the sequence, a service slot, a burst. -/
inductive MonSrc where
  | none
  | seq
  | svc
  | burst
deriving DecidableEq, Repr

/-- Where the sequence stands in its entry (R323, R324): stopped, converting, in the delay, waiting for the trigger,
or triggered and held up by a service conversion. -/
inductive MonPhase where
  | stopped
  | convert
  | delay
  | wait
  | late
deriving DecidableEq, Repr

/-- Who asked for a burst (R328): transmit chain p, or the system calibration's OP on AIN0 or AIN1. -/
inductive BurstFor where
  | chain (p : Nat)
  | zero (ch : Nat)
  | full (ch : Nat)
deriving DecidableEq, Repr

/-- A burst: its clean conversions so far and the sum of its channel's corrected values. -/
structure Burst where
  who : BurstFor
  n : Nat
  sum : Nat
deriving DecidableEq, Repr

/-- The monitor. -/
structure Mon where
  cur : MonSrc
  phase : MonPhase
  entry : Nat
  /-- Conversions the entry has made since its start, and whether it started on a trigger. -/
  made : Nat
  trig : Bool
  /-- EN was written 0, or RESTART 1, during the conversion in progress. -/
  stop : Bool
  restart : Bool
  /-- The next service slot, and the insertions that have fallen due. -/
  slot : Nat
  due : Nat
  /-- The next conversion of MON0, MON1 is flagged RECOVERY (R322). -/
  rec0 : Bool
  rec1 : Bool
  /-- The result ring, oldest first (R331). -/
  ring : List Nat
  /-- Consecutive passes of slot 13 outside and within the range, by converter (R327). -/
  bad0 : Nat
  good0 : Nat
  bad1 : Nat
  good1 : Nat
  /-- Bursts in order of request (R328). -/
  bursts : List Burst
  /-- The sum of the zero burst (R332), and the OFFSET and GAIN being saved for a channel (R333). -/
  zero : Option (Nat × Nat)
  save : Option (Nat × Nat × Nat)
  /-- The latest clean corrected result of AIN0 and AIN1, with the loop period of its completion (R166). -/
  ain : Table (Option (Int × Nat))
  /-- The latest raw codes of XT0 to XT3 from service slots 8 to 11 (R344). -/
  xt : Table Nat
deriving DecidableEq, Repr

def mon0 : Mon where
  cur := .none
  phase := .stopped
  entry := 0
  made := 0
  trig := false
  stop := false
  restart := false
  slot := 0
  due := 0
  rec0 := false
  rec1 := false
  ring := []
  bad0 := 0
  good0 := 0
  bad1 := 0
  good1 := 0
  bursts := []
  zero := none
  save := none
  ain := []
  xt := []

end Sys2Proof.Machine
end

