-- ==== Sys2Proof/Machine/SigTypes.lean ====
section
/-!
DEFINITION. The data of the signal path: converter samples, band windows, segment paths, and ports (R63 to R111, R184 to R191,
R276, R277, R284).
-/

namespace Sys2Proof.Machine

/-- A complex value. A converter code is a whole number; from the band window on a value has 4 bits more, so full scale is 2^17
(R87; that the band window too has that scale is PRESUMED, log entry 66). -/
abbrev Cx := Int × Int

/-- A converter sample: its code, OVR, and INV for the recovery from an over-range or for a foreground calibration. -/
structure ConvSmp where
  code : Int
  ovr : Bool
  recov : Bool
  cal : Bool
deriving DecidableEq, Repr

/-- A sample of a band window or a segment, with its flags. -/
structure PathSmp where
  v : Cx
  ovr : Bool
  inv : Bool
deriving DecidableEq, Repr

def smp0 : PathSmp := ⟨(0, 0), false, false⟩

/-- A band window: the flags that follow its samples through the front stage, and the Thresher's five samples, both newest
first (R75, R85); whether a sample has been replaced in the loop period (R114). -/
structure BandWin where
  flags : List (Bool × Bool)
  five : List PathSmp
  hit : Bool
deriving DecidableEq, Repr

def bandWin0 : BandWin := ⟨[], [], false⟩

/-- A ramp that is linear in level: it starts at num / 64^exp level units, or at num / 256^exp of a port's back-off, goes to
`goal`, and has made `i` of its steps (R94, R110, R277). -/
structure Ramp where
  num : Int
  exp : Nat
  goal : Int
  i : Nat
deriving DecidableEq, Repr

def ramp0 : Ramp := ⟨0, 0, 0, 0⟩

/-- An output branch of a segment at stages 10 and 11: its own ramp's amplitude in 64ths, the probe's chip impulses and the
shaped samples, newest first, its density (R187 to R191), the phase of its translation, and stage 10's last samples. -/
structure OutPath where
  amp : Nat
  chips : List Int
  shaped : List Int
  dens : Ramp
  nco : Nat
  line : List Cx
  /-- On a head branch, the 28 bits that the container carries last (R301). -/
  cont : Nat
deriving DecidableEq, Repr

def outPath0 : OutPath := ⟨64, [], [], ramp0, 0, [], 0⟩

/-- A segment's path (Table 1.2, stages 5 to 11). -/
structure SegPath where
  /-- Band-window samples since the boundary that its sample instants stand on (R103), and segment samples since the last latch. -/
  t : Nat
  since : Nat
  /-- The oscillator's phase, in 2^-32 of a turn (R82). -/
  nco : Nat
  /-- The decimators' last samples, DEC0 first, and the flags of the sample interval so far. -/
  dec : List (List Cx)
  ovr : Bool
  inv : Bool
  /-- The DC blocker's estimate in 2^-20 of a sample (R89), and the channel filter's last samples. -/
  dc : Cx
  chf : List Cx
  /-- Stage 9's last outputs, newest first: the canceller's reference history (R199). -/
  hist : List Cx
  /-- The gain's ramp, and the amplitude of a mute's or a gate's in 64ths (R94, R95). -/
  gain : Ramp
  amp : Nat
  outs : Table OutPath
deriving DecidableEq, Repr

def segPath0 : SegPath where
  t := 0
  since := 0
  nco := 0
  dec := []
  ovr := false
  inv := false
  dc := (0, 0)
  chf := []
  hist := []
  gain := ramp0
  amp := 0
  outs := []

/-- An output port at stage 12: the ramp of its back-off, the composites of the eight windows and the predistorted ones, last
samples first (R275, R284). -/
structure PortPath where
  back : Ramp
  comp : List (List Cx)
  post : List (List Cx)
deriving DecidableEq, Repr

def portPath0 : PortPath := ⟨ramp0, [], []⟩

/-- The signal path: band-window samples since power-on, and the last samples of each converter, newest first. -/
structure Sig where
  t : Nat
  conv : Table (List ConvSmp)
  wins : Table BandWin
  paths : Table SegPath
  ports : Table PortPath
deriving DecidableEq, Repr

def sig0 : Sig := ⟨0, [], [], [], []⟩

end Sys2Proof.Machine
end

