-- ==== Sys2Proof/Machine/Dev.lean ====
section
/-!
DEFINITION. `Dev`, everything the engine holds but its command queue and its capture memory.
-/

namespace Sys2Proof.Machine

/-- The engine. Registers hold every register field that no typed part holds; `shadow` is their second bank
(R105); both read as the reset word where nothing is listed. -/
structure Dev where
  part : Part
  devLoop : Nat
  devHi : Nat
  regs : Table Word
  shadow : Table Word
  rep : Rep
  supply : Supply
  mode : Mode
  prev : Mode
  testFromSafe : Bool
  modeCause : Nat
  alm : List Bool
  boot : Boot
  trust : Trust
  segs : Table Seg
  ctxs : Table Ctx
  airs : Table Air
  sched : Sched
  switches : Table Switch
  exts : Table Ext
  /-- The aligned value of the superframe phase S, none before the first one: S is then 0 (R297). -/
  sfPhase : Option Nat
  trace : Trace
  isos : Table Iso
  np : Np
  chains : Table Chain
  pwr : Pwr
  capChs : Table CapCh
  conv : Conv
  feeds : Table Feed
  sig : Sig
  /-- Max_Payload_Size is 128 bytes (R383). -/
  mps128 : Bool
  /-- The active segments, ascending, deactivating ones among them (R103). -/
  act : List Nat
  /-- Whether the gains of the loop period in progress have been written (R146), and whether its contexts have been
  evaluated. -/
  written : Bool
  evaluated : Bool
  lnk : Lnk
  mon : Mon
  /-- How many free values the run has taken. -/
  free : Nat
deriving DecidableEq, Repr

end Sys2Proof.Machine
end

