-- ==== Sys2Proof/Machine/Ops.lean ====
section
/-!
DEFINITION. Registers, page headers, interrupt events, items, rings, Tally staging and fault events: the shared
operations every command's meaning is written in.
-/

namespace Sys2Proof.Machine

/-- The key of a register. -/
def rkey (page off : Nat) : Nat := page * 4096 + off

/-- A register's word in the active bank. -/
def reg (d : Dev) (page off : Nat) : Word := tget (regReset d.part) d.regs (rkey page off)

/-- A register's word in the shadow bank (R105). -/
def regSh (d : Dev) (page off : Nat) : Word := tget (regReset d.part) d.shadow (rkey page off)

def setReg (d : Dev) (page off : Nat) (w : Word) : Dev :=
  { d with regs := tset (regReset d.part) d.regs (rkey page off) w }

def setSh (d : Dev) (page off : Nat) (w : Word) : Dev :=
  { d with shadow := tset (regReset d.part) d.shadow (rkey page off) w }

/-- A field's value, and its value as a signed code. -/
def rd (d : Dev) (page : Nat) (f : Fld) : Nat := wordGet f (reg d page f.off)
def rdS (d : Dev) (page : Nat) (f : Fld) : Int := s16 (rd d page f)
def rdB (d : Dev) (page : Nat) (f : Fld) : Bool := decide (rd d page f ≠ 0)
def rdSh (d : Dev) (page : Nat) (f : Fld) : Nat := wordGet f (regSh d page f.off)

/-- Write a field, a signed code, a bit; count up a saturating field. -/
def wr (d : Dev) (page : Nat) (f : Fld) (v : Nat) : Dev := setReg d page f.off (wordSet f (reg d page f.off) v)
def wrS (d : Dev) (page : Nat) (f : Fld) (z : Int) : Dev := wr d page f (u16 z)
def wrB (d : Dev) (page : Nat) (f : Fld) (b : Bool) : Dev := wr d page f (b2n b)
def bump (d : Dev) (page : Nat) (f : Fld) : Dev := wr d page f (satAdd f.wd (rd d page f) 1)
def wrSh (d : Dev) (page : Nat) (f : Fld) (v : Nat) : Dev := setSh d page f.off (wordSet f (regSh d page f.off) v)
/-- Count up a field that wraps. -/
def incr (d : Dev) (page : Nat) (f : Fld) : Dev := wr d page f (rd d page f + 1)

/-- The page's common header. -/
def hdrOf (r : Rep) (page : Nat) : Hdr := tget (fun _ => hdr0) r.hdr page
def setHdr (r : Rep) (page : Nat) (h : Hdr) : Rep := { r with hdr := tset (fun _ => hdr0) r.hdr page h }
def hdr (d : Dev) (page : Nat) : Hdr := hdrOf d.rep page
def modHdr (d : Dev) (page : Nat) (f : Hdr → Hdr) : Dev :=
  { d with rep := setHdr d.rep page (f (hdrOf d.rep page)) }

def emit (r : Rep) (o : Out) : Rep := { r with out := o :: r.out }
def emitD (d : Dev) (o : Out) : Dev := { d with rep := emit d.rep o }

/-- The master is the Fyhan agent (R360). -/
def agentMaster (d : Dev) : Bool := rdB d pgHOST HOST.MASTER_SEL

/-- An event on a vector reaches the master alone (R358, R402). -/
def sendVec (d : Dev) (r : Rep) (v : Nat) : Rep :=
  if agentMaster d then emit r (.agentIrq v)
  else
    let e := tget (fun _ => msix0) r.msix v
    if r.msixMask || e.masked then { r with msix := tset (fun _ => msix0) r.msix v { e with pend := true } }
    else if r.msixEn then emit r (.msix v) else r

/-- The vector of an interrupt event of a page: the enabled route entry of lowest index that covers it (R402). -/
def routeFrom (d : Dev) (page : Nat) : Nat → Nat → Option Nat
  | 0, _ => none
  | n + 1, e =>
    if rdB d pgIRQ (IRQ.ROUTE_A_EN e) ∧ rd d pgIRQ (IRQ.ROUTE_A_FIRST e) ≤ page ∧ page ≤ rd d pgIRQ (IRQ.ROUTE_A_LAST e)
    then some (rd d pgIRQ (IRQ.ROUTE_B_VEC e) + (page - rd d pgIRQ (IRQ.ROUTE_A_FIRST e)) / 2 ^ rd d pgIRQ (IRQ.ROUTE_B_SHIFT e))
    else routeFrom d page n (e + 1)

def routeVec (d : Dev) (page : Nat) : Option Nat := routeFrom d page 64 0

/-- Deliver an interrupt event of a page to its vector. -/
def vecEvent (d : Dev) (r : Rep) (page : Nat) : Rep :=
  match routeVec d page with
  | some v => sendVec d r v
  | none => r

/-- Set INT_RAW bits; an unmasked one is an interrupt event and reaches its vector (R393). No PAGE_EVENT. -/
def raiseVec (d : Dev) (r : Rep) (page bits : Nat) : Rep :=
  let h := hdrOf r page
  let b := BitVec.ofNat 32 bits
  let r := setHdr r page { h with raw := h.raw ||| b }
  if b &&& ~~~ h.mask = 0 then r else vecEvent d r page

/-- The global queue whose range holds a page (Table 14.4, G2 to G7). -/
def globOf (page : Nat) : Option Nat :=
  if (0x20 ≤ page ∧ page ≤ 0x6F) ∨ (0x90 ≤ page ∧ page ≤ 0x9F) then some 2
  else if 0x10 ≤ page ∧ page ≤ 0x1F then some 3
  else if 0x80 ≤ page ∧ page ≤ 0x8F then some 4
  else if (0x70 ≤ page ∧ page ≤ 0x73) ∨ (0xA0 ≤ page ∧ page ≤ 0xBF) then some 5
  else if page ≤ 0xF ∨ (0xF0 ≤ page ∧ page ≤ 0xFF) then some 6
  else if (0xC0 ≤ page ∧ page ≤ 0xCF) ∨ (0x100 ≤ page ∧ page ≤ 0x11F) then some 7
  else none

/-- The key of queue qj of SEG[n], and of G[g]. -/
def qSeg (n j : Nat) : Nat := 16 * n + j
def qGlob (g : Nat) : Nat := 0x10000 + g

/-- A queue's page, its block in the page, its CTX and its ROLE. -/
def qPage (k : Nat) : Nat := if k < 0x10000 then pgQ k else pgGQ
def qBlk (k : Nat) : Nat := if k < 0x10000 then k % 4 else k - 0x10000
def qCtx (k : Nat) : Nat := if k < 0x10000 then k / 16 else 0x800 + (k - 0x10000)
def qRole (k : Nat) : Nat := if k < 0x10000 then k % 16 else k - 0x10000

def queueOf (r : Rep) (k : Nat) : Queue := tget (fun _ => queue0) r.queues k
def setQueue (r : Rep) (k : Nat) (q : Queue) : Rep := { r with queues := tset (fun _ => queue0) r.queues k q }

/-- Complete items held, and words held. -/
def qItems (q : Queue) : Nat := q.items.length + (match q.kept with | some _ => 1 | none => 0)
def qFill (q : Queue) : Nat :=
  (q.items.map fun h => h.item.words).foldl (· + ·) 0 + (match q.kept with | some h => h.item.words | none => 0)

/-- The queue store's size in words (R368). -/
def storeWords : Nat := 16777216

/-- Pack fields from bit 0 upwards and cut them into dwords (R367). -/
def packNat : List (Nat × Nat) → Nat
  | [] => 0
  | (v, w) :: t => v % 2 ^ w + 2 ^ w * packNat t

def dwordsOf (n : Nat) : Nat → List Nat
  | 0 => []
  | k + 1 => n % 4294967296 :: dwordsOf (n / 4294967296) k

/-- Make an item in a queue: it takes a sequence number, and is accepted or dropped (R365, R368, R369). The events
it causes are returned as pages and INT_RAW bits. -/
def enqueue (d : Dev) (r : Rep) (k typ words : Nat) (payload : List (Nat × Nat)) : Rep × List (Nat × Nat) :=
  let pg := qPage k
  let b := qBlk k
  if ¬ rdB d pg (QB.Q_CFG_EN b) then (r, [])
  else
    let q := queueOf r k
    let seq := q.next
    let q := { q with next := (seq + 1) % 65536 }
    let short := decide (storeWords < r.storeUsed + words) || r.flt.away.contains 132
    if short || decide (rd d pg (QB.Q_LIMIT_LIMIT b) < qFill q + words) then
      let q := { q with dropped := satAdd 16 q.dropped 1, overflow := true }
      let r := setQueue r k q
      if short then ({ r with storeDropped := satAdd 32 r.storeDropped 1 }, [(pg, 2 ^ (4 * b + 1)), (pgHOST, 2)])
      else (r, [(pg, 2 ^ (4 * b + 1))])
    else
      let it : Item :=
        { typ := typ, prio := rd d pg (QB.Q_CFG_PRIO b), words := words, seq := seq, ctx := qCtx k, role := qRole k,
          stamp := d.devLoop % 4294967296, payload := dwordsOf (packNat payload) (4 * words - 3) }
      let h : Held := { item := it, done := d.devLoop, ord := r.ord, seen := false }
      let lvl := rd d pg (QB.Q_WM_LEVEL b)
      let cross := decide (lvl ≠ 0 ∧ qItems q + 1 = lvl)
      let q := { q with items := q.items ++ [h], wmLatch := q.wmLatch || cross }
      let r := setQueue { r with ord := r.ord + 1, storeUsed := r.storeUsed + words } k q
      (r, if cross then [(pg, 2 ^ (4 * b))] else [])

/-- The sixteen bytes of words of an item as it is delivered (Table 14.5). -/
def itemDwords (it : Item) : List Nat :=
  (it.typ * 16777216 + it.prio * 2097152 + (it.words - 1) * 524288 + it.seq)
    :: (it.ctx * 65536 + it.role) :: it.stamp :: it.payload

/-- The effective priority of a queue (R372). -/
def effPrio (d : Dev) (q : Queue) : Nat :=
  let age := rd d pgHOST HOST.AGE_AGE_STEP
  q.items.foldl
    (fun m h => max m (min 7 (h.item.prio + (if age = 0 then 0 else (d.devLoop - h.done) / age)))) 0

/-- Whether queue a goes before queue b: higher effective priority, then the oldest item completed first. -/
def beats (d : Dev) (a b : Queue) : Bool :=
  match a.items, b.items with
  | x :: _, y :: _ =>
    decide (effPrio d b < effPrio d a) || (decide (effPrio d a = effPrio d b) && decide (x.ord < y.ord))
  | _ :: _, [] => true
  | [], _ => false

/-- The queue a ring chooses (R372). -/
def chooseQ (d : Dev) (ring : Nat) : Table Queue → Option (Nat × Queue)
  | [] => none
  | (k, q) :: t =>
    let rest := chooseQ d ring t
    if q.items = [] ∨ rd d (qPage k) (QB.Q_CFG_RING (qBlk k)) ≠ ring then rest
    else
      match rest with
      | none => some (k, q)
      | some (j, p) => if beats d p q then some (j, p) else some (k, q)

def injOf (r : Rep) (i : Nat) : Inj := tget (fun _ => inj0) r.inj i
def setInj (r : Rep) (i : Nat) (x : Inj) : Rep := { r with inj := tset (fun _ => inj0) r.inj i x }

/-- Count a unit of an armed injector and say whether it is hit (R476). -/
def injCount (d : Dev) (i : Nat) (x : Inj) : Bool × Inj :=
  let mode := rd d pgPROV (INJ.INJ_SEL_MODE i)
  let n := x.seen
  let x := { x with seen := satAdd 32 n 1 }
  if x.skip then (false, { x with skip := false, seen := n })
  else if mode = 1 then
    let l := Config.injNext x.lfsr
    let hit := decide (l.toNat < rd d pgPROV (INJ.INJ_SEL_RATE i))
    (hit, { x with lfsr := l, hits := if hit then satAdd 32 x.hits 1 else x.hits })
  else if mode = 2 then
    let after := rd d pgPROV (INJ.INJ_POS_AFTER i)
    let count := rd d pgPROV (INJ.INJ_POS_COUNT i)
    let every := rd d pgPROV (INJ.INJ_SPC_EVERY i)
    let hit := decide (after ≤ n ∧ (n - after) % every = 0 ∧ (n - after) / every < count)
    let fin := decide (hit = true ∧ (n - after) / every + 1 = count)
    (hit, { x with hits := if hit then satAdd 32 x.hits 1 else x.hits, state := if fin then 2 else x.state })
  else (false, x)

/-- The injector acts on units of this kind and index. -/
def injOn (d : Dev) (r : Rep) (i kind index dir : Nat) : Bool :=
  decide ((injOf r i).state = 1 ∧ rd d pgPROV (INJ.INJ_TGT_KIND i) = kind ∧ rd d pgPROV (INJ.INJ_TGT_INDEX i) = index
    ∧ (kind = 3 ∨ rd d pgPROV (INJ.INJ_TGT_DIR i) = dir))

/-- XOR a mask into a payload dword: dword `pos`, or the last (Table 20.2). -/
def xorAt : List Nat → Nat → Nat → List Nat
  | [], _, _ => []
  | [x], _, m => [x ^^^ m]
  | x :: y :: t, 0, m => (x ^^^ m) :: y :: t
  | x :: y :: t, p + 1, m => x :: xorAt (y :: t) p m

/-- The injectors' index of a queue (Table 20.1). -/
def injQueue (k : Nat) : Nat := if k < 0x10000 then k else 0x4000 + (k - 0x10000)

/-- What the injectors make of a chosen item. -/
inductive InjRes where
  | pass (it : Item)
  | drop
  | hold
deriving DecidableEq, Repr

/-- A chosen item meets the injectors in ascending index (R475 to R478). -/
def injItem (d : Dev) (k : Nat) : Nat → Nat → Rep → Item → Rep × InjRes
  | 0, _, r, it => (r, .pass it)
  | n + 1, i, r, it =>
    if injOn d r i 3 (injQueue k) 0 then
      let (hit, x) := injCount d i (injOf r i)
      let fin := decide (x.state = 2)
      let x := if hit then { x with last := it.seq } else x
      let r := setInj r i x
      let r := if hit && fin then raiseVec d r pgPROV (2 ^ i) else r
      if hit then
        let act := rd d pgPROV (INJ.INJ_TGT_ACTION i)
        if act = 0 then (r, .drop)
        else if act = 1 then
          injItem d k n (i + 1) r
            { it with payload := xorAt it.payload (rd d pgPROV (INJ.INJ_SEL_POS i)) (rd d pgPROV (INJ.INJ_MASK_MASK i)) }
        else (setInj r i { x with held := some [it.seq, 3, injQueue k, 0], skip := true }, .hold)
      else injItem d k n (i + 1) r it
    else injItem d k n (i + 1) r it

/-- Take `n` dwords at a time. -/
def chunk4 : List Nat → Nat → List (List Nat)
  | _, 0 => []
  | l, n + 1 => l.take 4 :: chunk4 (l.drop 4) n

def ringOf (r : Rep) (i : Nat) : Ring := tget (fun _ => ring0) r.rings i
def setRing (r : Rep) (i : Nat) (x : Ring) : Rep := { r with rings := tset (fun _ => ring0) r.rings i x }

/-- Slots of a ring (R370). -/
def ringSize (d : Dev) (i : Nat) : Nat := 2 ^ rd d pgRING (RING.RING_CFG_LOG2 i)
def ringUsed (x : Ring) : Nat := (x.head + 4294967296 - x.tail) % 4294967296

/-- Write an item's words to the ring, HEAD to the write-back address, then the vector (R370, R371). -/
def ringWrite (d : Dev) (r : Rep) (i : Nat) (it : Item) : Rep :=
  let x := ringOf r i
  let base := rd d pgRING (RING.RING_BASE_HI_BASE i) * 4294967296 + rd d pgRING (RING.RING_BASE_LO_BASE i)
  let wb := rd d pgRING (RING.RING_WB_HI_WB i) * 4294967296 + rd d pgRING (RING.RING_WB_LO_WB i)
  let r := (chunk4 (itemDwords it) it.words).foldl
    (fun (a : Rep × Nat) w => (emit a.1 (.memWrite (base + 16 * ((x.head + a.2) % ringSize d i)) w), a.2 + 1)) (r, 0) |>.1
  let h := (x.head + it.words) % 4294967296
  let r := emit r (.memWrite wb [h])
  let r := setRing r i { x with head := h }
  if rdB d pgRING (RING.RING_CFG_IE i) then
    if rd d pgRING (RING.RING_MOD_MOD i) = 0 then sendVec d r (rd d pgRING (RING.RING_CFG_VEC i))
    else
      let x := ringOf r i
      if x.modRun then setRing r i { x with modPend := true }
      else sendVec d (setRing r i { x with modRun := true }) (rd d pgRING (RING.RING_CFG_VEC i))
  else r

/-- The injector holds a unit of this target: a held unit is recorded as its number and its target's KIND, INDEX and
DIR. -/
def holdsOf (x : Inj) (kind index dir : Nat) : Bool :=
  match x.held with
  | some [_, k, n, e] => decide (k = kind ∧ n = index ∧ e = dir)
  | _ => false

/-- The injectors that hold a unit of this target hold it no longer (R477). -/
def releaseHeld (r : Rep) (kind index dir : Nat) : Nat → Nat → Rep
  | 0, _ => r
  | n + 1, i =>
    let x := injOf r i
    releaseHeld (if holdsOf x kind index dir then setInj r i { x with held := none, skip := false } else r)
      kind index dir n (i + 1)

/-- One ring delivers while it is enabled, an item waits and there is room (R372). `fuel` bounds the items. -/
def deliverRing (d : Dev) : Nat → Rep → Nat → Rep
  | 0, r, _ => r
  | fuel + 1, r, i =>
    if ¬ rdB d pgRING (RING.RING_CFG_EN i) then r
    else
      match chooseQ d i r.queues with
      | none => r
      | some (k, q) =>
        match q.items with
        | [] => r
        | h :: t =>
          if ringSize d i < ringUsed (ringOf r i) + h.item.words then r
          else
            let (r, res) := if h.seen || q.kept.isSome then (r, InjRes.pass h.item) else injItem d k 8 0 r h.item
            match res with
            | .drop =>
              deliverRing d fuel
                (setQueue { r with storeUsed := r.storeUsed - h.item.words } k { q with items := t }) i
            | .hold => deliverRing d fuel (setQueue r k { q with items := t, kept := some { h with seen := true } }) i
            | .pass it =>
              let r := ringWrite d r i it
              let q' := match q.kept with
                | some g => { q with items := g :: t, kept := none, lastDlv := it.seq }
                | none => { q with items := t, lastDlv := it.seq }
              let r := if q.kept.isSome then releaseHeld r 3 (injQueue k) 0 8 0 else r
              deliverRing d fuel (setQueue { r with storeUsed := r.storeUsed - h.item.words } k q') i

/-- How many items a table of queues holds. -/
def itemCount : Table Queue → Nat
  | [] => 0
  | (_, q) :: t => qItems q + itemCount t

/-- The ring of a queue delivers what it can. -/
def pumpRing (d : Dev) (r : Rep) (i : Nat) : Rep := deliverRing d (2 * itemCount r.queues + 1) r i
def pumpQ (d : Dev) (r : Rep) (k : Nat) : Rep := pumpRing d r (rd d (qPage k) (QB.Q_CFG_RING (qBlk k)))

/-- One PAGE_EVENT item of a page's interrupt event; what its making causes produces no further item (R393). -/
def pageEvent (d : Dev) (r : Rep) (page bits : Nat) : Rep :=
  match globOf page with
  | none => r
  | some g =>
    let (r, ev) := enqueue d r (qGlob g) 0x88 1 [(page, 16), (bits, 16)]
    pumpQ d (ev.foldl (fun r e => raiseVec d r e.1 e.2) r) (qGlob g)

/-- An event on a page sets INT_RAW bits; unmasked, it is an interrupt event (R393). -/
def raiseR (d : Dev) (r : Rep) (page bits : Nat) : Rep :=
  let unm := decide (BitVec.ofNat 32 bits &&& ~~~ (hdrOf r page).mask ≠ 0)
  let r := raiseVec d r page bits
  if unm then pageEvent d r page bits else r

/-- Make an item, with the events and deliveries that follow (R368, R372). -/
def putItemR (d : Dev) (r : Rep) (k typ words : Nat) (payload : List (Nat × Nat)) : Rep :=
  let (r, ev) := enqueue d r k typ words payload
  pumpQ d (ev.foldl (fun r e => raiseR d r e.1 e.2) r) k

def raise (d : Dev) (page bit : Nat) : Dev := { d with rep := raiseR d d.rep page (2 ^ bit) }
def raiseBits (d : Dev) (page bits : Nat) : Dev := if bits = 0 then d else { d with rep := raiseR d d.rep page bits }
def putItem (d : Dev) (k typ words : Nat) (payload : List (Nat × Nat)) : Dev :=
  { d with rep := putItemR d d.rep k typ words payload }

/-- A refused write or command sets the page's ERROR status (R392, R402). -/
def setError (d : Dev) (page off : Nat) : Dev :=
  let h := hdr d page
  if h.error then d
  else
    let r := setHdr d.rep page { h with error := true, errOffs := off }
    let r := { r with errCnt := satAdd 32 r.errCnt 1 }
    { d with rep := if r.errValid then r else raiseR d { r with errValid := true, errPage := page } pgIRQ 1 }

end Sys2Proof.Machine
end

