-- ==== Sys2Proof/Machine/Action.lean ====
section
/-!
DEFINITION. What holds a segment's output: the protection actions in force, the transmit chains, the zones and the
links of head branches.
-/

namespace Sys2Proof.Machine

def segRt (d : Dev) (n : Nat) : Seg := tget (fun _ => seg0) d.segs n
def modSeg (d : Dev) (n : Nat) (f : Seg → Seg) : Dev := { d with segs := tset (fun _ => seg0) d.segs n (f (segRt d n)) }
def ctxRt (d : Dev) (n : Nat) : Ctx := tget (fun _ => ctx0) d.ctxs n
def modCtx (d : Dev) (n : Nat) (f : Ctx → Ctx) : Dev := { d with ctxs := tset (fun _ => ctx0) d.ctxs n (f (ctxRt d n)) }
def airRt (d : Dev) (c : Nat) : Air := tget (fun _ => air0) d.airs c
def modAir (d : Dev) (c : Nat) (f : Air → Air) : Dev := { d with airs := tset (fun _ => air0) d.airs c (f (airRt d c)) }
def chainRt (d : Dev) (p : Nat) : Chain := tget (fun _ => chain0) d.chains p
def modChain (d : Dev) (p : Nat) (f : Chain → Chain) : Dev :=
  { d with chains := tset (fun _ => chain0) d.chains p (f (chainRt d p)) }

def isoRt (d : Dev) (n : Nat) : Iso := tget (fun _ => iso0) d.isos n
def modIso (d : Dev) (n : Nat) (f : Iso → Iso) : Dev := { d with isos := tset (fun _ => iso0) d.isos n (f (isoRt d n)) }

def extRt (d : Dev) (k : Nat) : Ext := tget (fun _ => ext0) d.exts k
def modExt (d : Dev) (k : Nat) (f : Ext → Ext) : Dev := { d with exts := tset (fun _ => ext0) d.exts k (f (extRt d k)) }
def switchRt (d : Dev) (w : Nat) : Switch := tget (fun _ => switch0) d.switches w
def modSwitch (d : Dev) (w : Nat) (f : Switch → Switch) : Dev :=
  { d with switches := tset (fun _ => switch0) d.switches w (f (switchRt d w)) }

def pathRt (d : Dev) (n : Nat) : SegPath := tget (fun _ => segPath0) d.sig.paths n
def modSig (d : Dev) (f : Sig → Sig) : Dev := { d with sig := f d.sig }
def setPath (d : Dev) (n : Nat) (x : SegPath) : Dev :=
  modSig d fun s => { s with paths := tset (fun _ => segPath0) s.paths n x }
def modPath (d : Dev) (n : Nat) (f : SegPath → SegPath) : Dev := setPath d n (f (pathRt d n))

/-- A control message to a head: one fragment, which waits for its frame and then for its acknowledgement (R308). -/
def sendMsg (d : Dev) (k typ : Nat) (payload : List Nat) : Dev :=
  let x := extRt d k
  emitD (modExt d k fun x => { x with nextSeq := (x.nextSeq + 1) % 4096, unacked := x.unacked ++ [⟨x.nextSeq, typ :: payload, 0, none⟩] })
    (.headMsg k x.nextSeq typ payload)

/-- Run an update for each of a list of indices, in order. -/
def forEach (l : List Nat) (f : Nat → Dev → Dev) (d : Dev) : Dev := l.foldl (fun d n => f n d) d

/-- A segment is active, not deactivating (R103). -/
def isActive (d : Dev) (n : Nat) : Bool := d.act.contains n && ! (segRt d n).deact

/-- A segment's own page is 0x400 + n; its output branches (Table 4.2), its direction, clock and group. -/
def outs (d : Dev) (n : Nat) : List Nat := (List.range 12).filter (nbit (rd d (pgSEG n) SEG.ROUTE_OUT_MASK))
def hasOut (d : Dev) (n b : Nat) : Bool := nbit (rd d (pgSEG n) SEG.ROUTE_OUT_MASK) b
/-- DIR: 0 downlink, 1 uplink. -/
def isUplink (d : Dev) (n : Nat) : Bool := rdB d (pgSEG n) SEG.PATH_CFG_DIR
def clockOf (d : Dev) (n : Nat) : Nat := rd d (pgSEG n) SEG.PATH_CFG_CLOCK
def groupOf (d : Dev) (n : Nat) : Nat := rd d (pgSEG n) SEG.PATH_CFG_CARRIER_GRP
def inBranch (d : Dev) (n : Nat) : Nat := rd d (pgSEG n) SEG.ROUTE_IN_BRANCH

/-- A field of a windowed protection register as the engine uses it: a value written acts from the next latch (R272). -/
def rdU (d : Dev) (page : Nat) (f : Fld) : Nat :=
  wordGet f (tget (fun _ => reg d page f.off) d.np.late (rkey page f.off))
def rdUS (d : Dev) (page : Nat) (f : Fld) : Int := s16 (rdU d page f)
def rdUB (d : Dev) (page : Nat) (f : Fld) : Bool := decide (rdU d page f ≠ 0)
/-- The word in use is kept for the rest of the loop period. -/
def keepLate (d : Dev) (page off : Nat) : Dev :=
  let k := rkey page off
  if d.np.late.any fun e => decide (e.1 = k) then d
  else { d with np := { d.np with late := tinsert d.np.late k (reg d page off) } }

/-- The condition of a code on a segment, or on a port for EMISSION. -/
def ckey (code idx : Nat) : Nat := code * 1024 + idx
def condOf (d : Dev) (code idx : Nat) : Cond := tget (fun _ => cond0) d.np.conds (ckey code idx)
def setCond (d : Dev) (code idx : Nat) (c : Cond) : Dev :=
  { d with np := { d.np with conds := tset (fun _ => cond0) d.np.conds (ckey code idx) c } }
def modCond (d : Dev) (code idx : Nat) (f : Cond → Cond) : Dev := setCond d code idx (f (condOf d code idx))

/-- OPERATOR_OFF on a target: its level, 0 where none. -/
def opLevel (d : Dev) (key : Nat) : Nat := tget (fun _ => 0) d.np.ops key
def opBranch (b : Nat) : Nat := 1024 + b
def opModule : Nat := 2048

/-- The condition codes of a segment target: all but EMISSION (Table 9.1). -/
def segCodes : List Nat := [0, 1, 2, 3, 4, 6, 7, 8]

def maxOf (l : List Nat) : Nat := l.foldl max 0

/-- The highest level of a segment's own conditions and of an OPERATOR_OFF that names it. -/
def ownLevel (d : Dev) (n : Nat) : Nat := max (opLevel d n) (maxOf (segCodes.map fun c => (condOf d c n).level))

/-- The level of EMISSION on an engine port. -/
def portLevel (d : Dev) (p : Nat) : Nat := (condOf d 5 p).level

/-- The action in force on a segment (R253). -/
def segLevel (d : Dev) (n : Nat) : Nat :=
  max (max (ownLevel d n) (opLevel d opModule))
    (maxOf ((outs d n).map fun b => if b < 4 ∧ portLevel d b ≤ 2 then portLevel d b else 0))

/-- The trim steps in force on a segment (R253). -/
def trimSteps (d : Dev) (n : Nat) : Nat :=
  let st (c : Cond) := if c.level = 1 then c.steps else 0
  max (maxOf (segCodes.map fun c => st (condOf d c n)))
    (maxOf ((outs d n).map fun b => if b < 4 then st (condOf d 5 b) else 0))

/-- An action mutes the segment at stage 9 (Table 9.2). -/
def npMuted (d : Dev) (n : Nat) : Bool := decide (2 ≤ segLevel d n)

/-- RF_SILENT is in force (R253). -/
def npSilent (d : Dev) : Bool :=
  decide (4 ≤ opLevel d opModule) || (List.range 4).any (fun p => decide (4 ≤ portLevel d p))
    || d.act.any fun n => decide (4 ≤ ownLevel d n)

/-- A branch is switched off by an action or a command (R253). -/
def portOff (d : Dev) (b : Nat) : Bool :=
  decide (3 ≤ opLevel d (opBranch b)) || (decide (b < 4) && decide (3 ≤ portLevel d b))
    || d.act.any fun n => decide (3 ≤ ownLevel d n) && hasOut d n b

/-- PORT_OFF of NP_SUM: one bit per branch code. -/
def portOffMask (d : Dev) : Nat := ((List.range 12).filter (portOff d)).foldl (fun m b => m + 2 ^ b) 0

/-- A zone is shut down (R349). -/
def zoneShut (d : Dev) (z : Nat) : Bool := rdB d pgTHM (THM.ZONE_SHUT z)

/-- The zones whose shutdown takes port p's amplifier down (Table 13.5). -/
def portShut (d : Dev) (p : Nat) : Bool := zoneShut d p || zoneShut d 4 || zoneShut d 5 || zoneShut d 6 || zoneShut d 7

/-- The chain of a port is held at pinch-off by hardware (R281): hardware silence, RF_SILENT, thermal shutdown. -/
def hwHold (d : Dev) (p : Nat) : Bool := d.rep.flt.silent || npSilent d || portShut d p

/-- Chain states (Table 10.2). -/
def txOFF : Nat := 0
def txBIASING : Nat := 1
def txREADY : Nat := 2
def txON : Nat := 3
def txSTOPPING : Nat := 4
def txSILENCED : Nat := 5
def txLOADOFF : Nat := 6
def txLOADLATCHED : Nat := 7

def txState (d : Dev) (p : Nat) : Nat := rd d (pgTX p) TX.TX_STAT_STATE

/-- The link of a head branch (codes 4 to 11, Table 4.2). -/
def linkOf (b : Nat) : Nat := (b - 4) / 2
/-- Link state RUNNING (Table 11.8). -/
def extRUNNING : Nat := 3
def linkRunning (d : Dev) (b : Nat) : Bool := decide (rd d (pgEXT (linkOf b)) EXT.EXT_STAT_STATE = extRUNNING)

/-- A branch is off for HOLD bit 18 (Table 6.7). -/
def branchOff (d : Dev) (b : Nat) : Bool :=
  portOff d b || (if b < 4 then decide ((chainRt d b).load ≠ 0) else ! linkRunning d b)

/-- Hardware silence or thermal shutdown holds a branch. -/
def branchSilent (d : Dev) (b : Nat) : Bool := if b < 4 then hwHold d b else d.rep.flt.silent || npSilent d

/-- An output branch of a segment transmits. -/
def branchOn (d : Dev) (b : Nat) : Bool :=
  if b < 4 then decide (txState d b = txON) else linkRunning d b && ! portOff d b && ! branchSilent d b

/-- The four ports, the heads' branches. -/
def ports4 : List Nat := [0, 1, 2, 3]
def heads8 : List Nat := [4, 5, 6, 7, 8, 9, 10, 11]

/-- The gain ramp of ISO_SURVEY, which counts from the survey phase for R259 and R279 (R442). -/
def rampReached (d : Dev) : Bool :=
  match d.boot.phase with
  | .survey | .ramp | .done => true
  | _ => false

/-- The MONITOR step of the latest attempt has passed. -/
def monitorPassed (d : Dev) : Bool := decide (8 ≤ d.boot.passed ∧ d.boot.phase ≠ .retryRom)

/-- Conditions act and their timers run (R259). -/
def npActs (d : Dev) : Bool :=
  decide (d.supply = .on) && (match d.mode with | .safe => false | .start => rampReached d | _ => true)

/-- Protection's alarm condition (Table 19.6, ALM2). -/
def npClear (d : Dev) : Bool :=
  ! (npSilent d || decide (portOffMask d ≠ 0) || d.act.any (fun n => npMuted d n)
      || (List.range 4).any (fun p => decide (2 ≤ portLevel d p))
      || d.np.conds.any (fun e => e.2.latched))

end Sys2Proof.Machine
end

