-- ==== Sys2Proof/Machine/PathOps.lean ====
section
/-!
DEFINITION. What commits, gains and switches do to the signal path: the ramps, zeroed states and sample instants (R94, R98,
R103, R104, R110, R277).
-/

namespace Sys2Proof.Machine

/-! Ramps of `base` steps -/

/-- The present value as a fraction, its numerator over base^(exp + 1): start + (goal − start) × i / base. -/
def Ramp.num' (base : Nat) (r : Ramp) : Int := r.num * base + (r.goal * (base : Int) ^ r.exp - r.num) * r.i
/-- A new ramp starts from the present ramped value (R110). -/
def Ramp.aim (base : Nat) (r : Ramp) (goal : Int) : Ramp :=
  if r.i = base then ⟨r.goal, 0, goal, 0⟩ else if r.i = 0 then { r with goal := goal } else ⟨r.num' base, r.exp + 1, goal, 0⟩
def Ramp.step (base : Nat) (r : Ramp) : Ramp := { r with i := min base (r.i + 1) }
/-- At rest at a value. -/
def Ramp.at (base : Nat) (z : Int) : Ramp := ⟨z, 0, z, base⟩
/-- Five times the value in level units, rounded down: steps of a two-thousandth of a decade of amplitude. -/
def Ramp.steps (base : Nat) (r : Ramp) : Int := 5 * r.num' base / (base : Int) ^ (r.exp + 1)

/-! Gains and levels written at phase 25.00 µs -/

/-- A written gain starts a ramp of 64 samples (R94). -/
def aimGain (d : Dev) (n : Nat) (g : Int) : Dev := modPath d n fun x => { x with gain := x.gain.aim 64 g }
/-- ρ of each output branch follows the gain's ramp (R189); a probe that is off, −32,768, starts and stops at once. -/
def aimDens (d : Dev) (n : Nat) (l : List (Nat × Int)) : Dev :=
  modPath d n fun x => { x with outs := l.foldl (fun t e =>
    let o := tget (fun _ => outPath0) t e.1
    let r := if e.2 = -32768 ∨ o.dens.goal = -32768 then Ramp.at 64 e.2 else o.dens.aim 64 e.2
    tset (fun _ => outPath0) t e.1 { o with dens := r }) x.outs }
/-- The back-off is applied through 256 band-window samples (R277). -/
def aimBack (d : Dev) (p : Nat) (b : Int) : Dev :=
  modSig d fun s =>
    let x := tget (fun _ => portPath0) s.ports p
    { s with ports := tset (fun _ => portPath0) s.ports p { x with back := x.back.aim 256 b } }

def winRt (d : Dev) (w : Nat) : BandWin := tget (fun _ => bandWin0) d.sig.wins w
def setWin (d : Dev) (w : Nat) (x : BandWin) : Dev := modSig d fun s => { s with wins := tset (fun _ => bandWin0) s.wins w x }
/-- A loop period begins: no sample of a band window has been replaced in it (R114). -/
def winLatch (w : Nat) (d : Dev) : Dev := setWin d w { winRt d w with hit := false }

/-! Zeroed path state (Table 4.7) -/

/-- Stages 5 to 11 restart from zero, with the canceller's reference history; gains, mutes and probes run on (R104, R111). A
retune and a synchronizing reset place a sample on the boundary. -/
def SegPath.restart (place : Bool) (x : SegPath) : SegPath :=
  let x := { x with dec := [], ovr := false, inv := false, chf := [], hist := [],
                    outs := x.outs.foldl (fun t e => tset (fun _ => outPath0) t e.1 { e.2 with line := [] }) [] }
  if place then { x with t := 0 } else x
def pathRestart (d : Dev) (n : Nat) (place : Bool) : Dev := modPath d n (SegPath.restart place)

/-- The estimate of the DC blocker is zeroed. -/
def pathNoDc (d : Dev) (n : Nat) : Dev := modPath (setReg d (pgSEG n) 0x70 0) n fun x => { x with dc := (0, 0) }
/-- A path at activation: everything zero. -/
def pathNew (d : Dev) (n : Nat) : Dev := setPath d n segPath0
/-- Output branches that are added, or whose ramp has ended, are back at zero, each on its own (R98). -/
def pathBranches (d : Dev) (n : Nat) (l : List Nat) : Dev :=
  modPath d n fun x => { x with outs := l.foldl (fun t b => tset (fun _ => outPath0) t b outPath0) x.outs }
/-- A segment's path goes with its deactivation. -/
def pathEnd (d : Dev) (n : Nat) : Dev := setPath d n segPath0

end Sys2Proof.Machine
end

