-- ==== Sys2Proof/Machine/SegDef.lean ====
section
/-!
DEFINITION. A segment's definition as its page gives it, the bands, delays and lengths that follow from it, and the
states that a segment's page shows (R14, R37, R38, R42, R79 to R104, R137 to R143, R306).
-/

namespace Sys2Proof.Machine

/-- Hertz of a megahertz. -/
def mhz : Nat := 1000000

/-- Uplink and downlink range in MHz of filter-bank position q of a set (Tables 2.3 and 2.4). -/
def bandRange (s : PartSet) (q : Nat) : Option (Nat × Nat × Nat × Nat) :=
  match s, q with
  | .A, 0 => some (663, 698, 617, 652)
  | .A, 1 => some (699, 716, 729, 746)
  | .A, 2 => some (824, 849, 869, 894)
  | .A, 3 => some (1850, 1910, 1930, 1990)
  | .A, 4 => some (1710, 1780, 2110, 2200)
  | .A, 6 => some (2496, 2690, 2496, 2690)
  | .A, 7 => some (3300, 4200, 3300, 4200)
  | .E, 0 => some (832, 862, 791, 821)
  | .E, 1 => some (880, 915, 925, 960)
  | .E, 2 => some (1710, 1785, 1805, 1880)
  | .E, 3 => some (1920, 1980, 2110, 2170)
  | .E, 4 => some (2500, 2570, 2620, 2690)
  | .W, 0 => some (703, 748, 758, 803)
  | .W, 1 => some (824, 849, 869, 894)
  | .W, 2 => some (880, 915, 925, 960)
  | .W, 3 => some (1710, 1785, 1805, 1880)
  | .W, 4 => some (1920, 1980, 2110, 2170)
  | .E, 6 => some (2300, 2400, 2300, 2400)
  | .W, 6 => some (2300, 2400, 2300, 2400)
  | .E, 7 => some (3300, 3800, 3300, 3800)
  | .W, 7 => some (3300, 3800, 3300, 3800)
  | _, _ => none

/-- The range of position q that a direction uses at every port: downlink carriers are received at the donors and
transmitted at the service ports in the downlink range, uplink carriers in the uplink range (R38). -/
def dirRange (s : PartSet) (q : Nat) (uplink : Bool) : Option (Nat × Nat) :=
  match bandRange s q with
  | some (ul, uh, dl, dh) => some (if uplink then (ul, uh) else (dl, dh))
  | none => none

/-- The fields of a segment's definition (Table 4.1). -/
structure SegDef where
  active : Bool
  uplink : Bool
  clock : Nat
  rate : Nat
  profile : Nat
  group : Nat
  centre : Nat
  width : Nat
  inb : Nat
  mask : Nat
  taps : Nat
deriving DecidableEq, Repr

/-- A definition from a way to read the page's fields. -/
def mkDef (get : Fld → Nat) : SegDef where
  active := decide (get SEG.PATH_CFG_ACTIVE ≠ 0)
  uplink := decide (get SEG.PATH_CFG_DIR ≠ 0)
  clock := get SEG.PATH_CFG_CLOCK
  rate := get SEG.PATH_CFG_RATE
  profile := get SEG.PATH_CFG_PROFILE
  group := get SEG.PATH_CFG_CARRIER_GRP
  centre := get SEG.CENTRE
  width := get SEG.WIDTH
  inb := get SEG.ROUTE_IN_BRANCH
  mask := get SEG.ROUTE_OUT_MASK
  taps := get SEG.CHF_CFG_TAPS

/-- The definition in force, and the one the shadow holds. -/
def defOf (d : Dev) (n : Nat) : SegDef := mkDef (rd d (pgSEG n))
def defSh (d : Dev) (n : Nat) : SegDef := mkDef (rdSh d (pgSEG n))

def SegDef.outs (x : SegDef) : List Nat := (List.range 12).filter (nbit x.mask)
/-- Every branch the definition names. -/
def SegDef.branches (x : SegDef) : List Nat := x.inb :: x.outs
def SegDef.ports (x : SegDef) : List Nat := x.branches.filter (· < 4)
def SegDef.heads (x : SegDef) : List Nat := x.branches.filter (4 ≤ ·)

/-- Twice the span's edges in hertz (R79). -/
def SegDef.lo2 (x : SegDef) : Int := 2 * x.centre - x.width
def SegDef.hi2 (x : SegDef) : Int := 2 * x.centre + x.width

/-- The span lies within a range given in MHz. -/
def SegDef.inRange (x : SegDef) (lo hi : Nat) : Bool :=
  decide (2 * (lo * mhz : Nat) ≤ x.lo2 ∧ x.hi2 ≤ 2 * (hi * mhz : Nat))

/-- The filter-bank position whose range for the direction holds the span (R42). -/
def SegDef.pos (s : PartSet) (x : SegDef) : Option Nat :=
  (List.range 8).find? fun q =>
    match dirRange s q x.uplink with
    | some (lo, hi) => x.inRange lo hi
    | none => false

/-- A TDD segment's span lies in a band at position 6 or 7. -/
def SegDef.tdd (s : PartSet) (x : SegDef) : Bool :=
  match x.pos s with
  | some q => decide (6 ≤ q)
  | none => false

/-- The segment rate in units of 1.92 Msps (Table 4.3). -/
def SegDef.units (x : SegDef) : Nat := 2 ^ x.rate

/-- The delay of a profile in 0.1 ns (Table 4.6). -/
def profDelay (p : Nat) : Nat := if p = 0 then 13000 else if p = 1 then 22500 else 49500

/-- The largest width in hertz of a profile and rate; none where the combination is not permitted (Table 4.4). -/
def maxWidth (profile rate : Nat) : Option Nat :=
  match profile, rate with
  | 0, 2 => some 1360000
  | 0, 3 => some 10280000
  | 0, 4 => some 26080000
  | 0, 5 => some 57000000
  | 0, 6 => some 118540000
  | 0, 7 => some 200000000
  | 1, 1 => some 1060000
  | 1, 2 => some 5380000
  | 1, 3 => some 13260000
  | 1, 4 => some 28700000
  | 1, 5 => some 59440000
  | 1, 6 => some 119040000
  | 1, 7 => some 200000000
  | 2, 0 => some 920000
  | 2, 1 => some 2960000
  | 2, 2 => some 6860000
  | 2, 3 => some 14560000
  | 2, 4 => some 29760000
  | 2, 5 => some 59520000
  | 2, 6 => some 119040000
  | 2, 7 => some 200000000
  | _, _ => none

/-- A quotient of natural numbers rounded up. -/
def ceilDiv (a b : Nat) : Nat := (a + b - 1) / b

/-- N_inv = ceil(2 × D × rate) (R104). -/
def nInv (profile rate : Nat) : Nat := ceilDiv (profDelay profile * 2 ^ rate * 3840) 10000000

/-- Words of a head's capability record (Table 11.5). -/
def capsWord (d : Dev) (k i : Nat) : Nat := (extRt d k).caps.getD i 0
/-- The word of branch b's block of the record. -/
def headWord (d : Dev) (b i : Nat) : Nat := capsWord d (linkOf b) (8 + 19 * (b % 2) + i)
def hTx (d : Dev) (b : Nat) : Nat := headWord d b 0 / 65536
def hRx (d : Dev) (b : Nat) : Nat := headWord d b 0 % 65536

/-- Some band of a head branch holds the span, in its receive or its transmit range (R42). -/
def headBand (d : Dev) (b : Nat) (tx : Bool) (x : SegDef) : Bool :=
  (List.range (min 8 (headWord d b 2 % 256))).any fun j =>
    let w := headWord d b (3 + 2 * j + b2n tx)
    x.inRange (w / 65536) (w % 65536)

/-- The fixed part of the delay between the input and an output branch, in 0.1 ns (R101, R306). -/
def fixedPart (d : Dev) (inb out : Nat) : Nat :=
  if 4 ≤ out then 2500 + 3000 + hTx d out else if 4 ≤ inb then hRx d inb + 3000 + 2500 else 5000

/-- N ≤ 2 × (D − F) × rate − 3 (R102, R307). -/
def tapsFit (d : Dev) (x : SegDef) (out : Nat) : Bool :=
  decide (((x.taps + 3) * 10000000 : Int)
    ≤ ((profDelay x.profile : Int) - fixedPart d x.inb out) * (2 ^ x.rate * 3840 : Nat))

/-- The delay-matching buffer of an output branch in converter samples, rounded to the nearest (R101). -/
def matchBuffer (d : Dev) (x : SegDef) (out : Nat) : Nat :=
  let den := 100000 * 2 ^ x.rate
  let num : Int := ((profDelay x.profile : Int) - fixedPart d x.inb out) * (98304 * 2 ^ x.rate : Nat)
    - ((2 + (x.taps - 1) / 2) * 5120 * 100000 : Nat)
  ((2 * num + den) / (2 * den)).toNat

/-! Switches and patterns (R137 to R143) -/

/-- The switches a definition works: 2p + s of an engine port, 8 + 2(b − 4) + s of a head branch. -/
def SegDef.switches (s : PartSet) (x : SegDef) : List Nat :=
  match x.pos s with
  | some q => if 6 ≤ q then x.branches.map fun b => if b < 4 then 2 * b + (q - 6) else 8 + 2 * (b - 4) + (q - 6) else []
  | none => []

/-- The segment is a TDD segment (R137). -/
def isTdd (d : Dev) (n : Nat) : Bool := (defOf d n).tdd d.part.set

/-- Symbols in 0.5 ms, symbol length and first-symbol length in air ticks (Table 5.7). -/
def symsHalf (scs : Nat) : Nat := if scs < 2 then 7 else if scs = 2 then 14 else 28
def symLen (scs : Nat) : Nat := if scs < 2 then 2192 else if scs = 2 then 1096 else 548
def symFirst (scs : Nat) : Nat := if scs < 2 then 2208 else if scs = 2 then 1112 else 564
/-- Symbols per slot, and slots in 20 ms. -/
def slotSyms (scs : Nat) : Nat := if scs = 0 then 7 else 14
def slots20 (scs : Nat) : Nat := if scs = 0 then 40 else if scs = 1 then 20 else if scs = 2 then 40 else 80

/-- The air tick at which symbol i after an even boundary begins. -/
def symTick (scs i : Nat) : Nat :=
  i / symsHalf scs * 15360 + (if i % symsHalf scs = 0 then 0 else symFirst scs + (i % symsHalf scs - 1) * symLen scs)

/-- A pattern record as read: SCS, UL_ADV, and its runs as (direction, symbols). -/
structure Pattern where
  scs : Nat
  ulAdv : Nat
  count : Nat
  runs : List (Nat × Nat)
deriving DecidableEq, Repr

def mkPattern (get : Fld → Nat) : Pattern where
  scs := get PAT.PAT_HDR_SCS
  ulAdv := get PAT.PAT_HDR_UL_ADV
  count := get PAT.PAT_HDR_RUNS
  runs := (List.range (min 16 (get PAT.PAT_HDR_RUNS))).map fun r => (get (PAT.PAT_RUN_DIR r), get (PAT.PAT_RUN_SYMBOLS r))
def patOf (d : Dev) (n : Nat) : Pattern := mkPattern (rd d (pgPAT n))
def patSh (d : Dev) (n : Nat) : Pattern := mkPattern (rdSh d (pgPAT n))

def Pattern.syms (x : Pattern) : Nat := (x.runs.map (·.2)).foldl (· + ·) 0

/-- A record is valid for a clock of a RAT (R138); a record with no run is empty (R137). -/
def Pattern.valid (x : Pattern) (rat : Nat) : Bool :=
  decide (x.count = 0) ||
    (decide (x.count ≤ 16) && (decide (rat = 2 ∧ x.scs = 0) || decide (rat = 3 ∧ 1 ≤ x.scs))
      && x.runs.all (fun r => decide (r.1 < 3 ∧ 1 ≤ r.2 ∧ r.2 ≤ 1120))
      && decide (x.syms % slotSyms x.scs = 0 ∧ slots20 x.scs % (x.syms / slotSyms x.scs) = 0))

/-- The segment runs gated in both directions: a GSM or UMTS clock, or an empty record (R137). -/
def patEmpty (d : Dev) (n : Nat) : Bool :=
  decide ((patOf d n).count = 0) || decide (rd d (pgAIR (clockOf d n)) AIR.SRC_CFG_RAT < 2)

/-- PAT_STAT of a segment's record. -/
def patStat (d : Dev) (n : Nat) : Nat :=
  let tdd := isActive d n && isTdd d n
  rd d (pgPAT n) PAT.PAT_STAT_SHORT_TICKS * 65536 + b2n (tdd && patEmpty d n) * 2 + b2n tdd

/-- Runs laid out in air ticks from symbol at0 on: (direction, start, length). -/
def layRuns (scs : Nat) : Nat → List (Nat × Nat) → List (Nat × Nat × Nat)
  | _, [] => []
  | at0, (dir, n) :: t => (dir, symTick scs at0, symTick scs (at0 + n) - symTick scs at0) :: layRuns scs (at0 + n) t

/-- The guards between a DL run and the next UL run, in air ticks, the period repeating (R143). `last`: the tick at
which the latest DL run ended. -/
def guardsFrom : Option Nat → List (Nat × Nat × Nat) → List Nat
  | _, [] => []
  | last, (dir, st, len) :: t =>
    if dir = 0 then guardsFrom (some (st + len)) t
    else if dir = 1 then
      match last with
      | some e => (st - e) :: guardsFrom none t
      | none => guardsFrom none t
    else guardsFrom last t
/-- Three periods show every guard: one period may begin within 0.5 ms (SCS 3), and its guard with the next one too. -/
def Pattern.guards (x : Pattern) : List Nat :=
  guardsFrom none ([0, 1, 2].flatMap fun k => layRuns x.scs (k * x.syms) x.runs)

/-- The profile delay in whole air ticks (R141). -/
def profTicks (p : Nat) : Nat := if p = 0 then 40 else if p = 1 then 69 else 152
/-- The downstream or upstream delay of a head branch in whole air ticks, 0.1 ns × 30.72 MHz, rounded to the nearest:
ONE_WAY + ASYM and ONE_WAY − ASYM (R313). -/
def fibreTicks (d : Dev) (b : Nat) (dn : Bool) : Nat :=
  let a := rdS d (pgEXT (linkOf b)) EXT.FIBRE_CFG_ASYM
  let t := (rd d (pgEXT (linkOf b)) EXT.FIBRE_ONE_WAY : Int) + (if dn then a else - a)
  ((t * 3072 * 2 + 1000000) / 2000000).toNat
/-- D_b of a branch in air ticks (R141): downstream for transmit windows, upstream for receive windows. -/
def delayTicks (d : Dev) (x : SegDef) (b : Nat) (dn : Bool) : Nat :=
  profTicks x.profile + (if 4 ≤ b then fibreTicks d b dn else 0)

/-- The largest shortfall of a guard over the branches of a definition (R143). -/
def shortTicks (d : Dev) (x : SegDef) (p : Pattern) : Nat :=
  (p.guards.map fun g =>
    (x.branches.map fun b => p.ulAdv + delayTicks d x b true + delayTicks d x b false + 1024 / 2 ^ x.rate + 11 - g).foldl max 0).foldl max 0

/-! States a page shows -/

/-- The segments' outputs are muted for the survey (R442). -/
def surveyMuted (d : Dev) : Bool := decide (d.boot.phase = .survey)

/-- The mute of R130 stands and has not lifted for the segment. -/
def lostMute (d : Dev) (n : Nat) : Bool :=
  let a := airRt d (clockOf d n)
  a.lostMode && ! a.lifted.contains n

/-- A mute of R25, R130, R152 or R442 acts at stage 9. -/
def isMuted (d : Dev) (n : Nat) : Bool :=
  npMuted d n || (isTdd d n && lostMute d n) || surveyMuted d || (segRt d n).capMute

/-- A TDD segment is gated: its gate is closed, or R129, R137 or R139 closes both directions. -/
def isGated (d : Dev) (n : Nat) : Bool :=
  isTdd d n && ((segRt d n).gated || patEmpty d n || (airRt d (clockOf d n)).stepGate
    || ! rdB d (pgAIR (clockOf d n)) AIR.CLK_STAT_SFN_KNOWN)

/-- SEG_STAT.STATE (Table 4.12). Where several hold, the order is that of this definition (DESIGN CHOICE, log entry 12). -/
def segState (d : Dev) (n : Nat) : Nat :=
  if ¬ d.act.contains n then 0
  else if (segRt d n).deact then 5
  else if (segRt d n).inv then 1
  else if isMuted d n then 3
  else if isGated d n then 4
  else 2

/-- A sounding burst runs on a branch (R192). -/
def burstOn (d : Dev) (b : Nat) : Bool := nbit (rd d pgPRB PRB.SOUND_STAT_ACTIVE) b

/-- The DC blocker acts (R90). -/
def dcbActs (d : Dev) (n : Nat) : Bool :=
  let mode := rd d (pgSEG n) SEG.DCB_CTRL_MODE
  isActive d n && (decide (mode = 2)
    || (decide (mode = 1) && (decide (4 ≤ inBranch d n) || rdB d (pgSEG n) SEG.SEG_STAT_DEGRADED)))

/-- DCB_STAT (R91, Table 4.13). -/
def dcbStat (d : Dev) (n : Nat) : Nat :=
  b2n (isActive d n && burstOn d (inBranch d n)) * 16 + b2n (decide ((segRt d n).turn ≠ .none)) * 8
    + b2n (rdB d (pgSEG n) SEG.DCB_CTRL_FREEZE) * 4 + b2n (dcbActs d n)

/-- IR_DATA and IR_HDR of the selected record (R196); zero where there is none. -/
def peekIr (d : Dev) (n off : Nat) : Nat :=
  match (isoRt d n).ir[rd d (pgSEG n) SEG.IR_SEL_HIST]? with
  | none => 0
  | some (seq, ref, l) =>
    if off = 0x84C then u16 ref * 65536 + seq % 65536
    else
      match l.find? fun e => decide (e.1 = rd d (pgSEG n) SEG.IR_SEL_BRANCH) with
      | none => 0
      | some e => e.2.getD (rd d (pgSEG n) SEG.IR_IDX_IDX) 0

end Sys2Proof.Machine
end

