-- ==== Sys2Proof/Machine/LinkDef.lean ====
section
/-!
DEFINITION. The injectors' meeting with a unit that is no queue item, the slots of the Cricket link, its neighbour
table, and what its pages show (R215 to R217, R234, R235, R243, R475 to R478).
-/

namespace Sys2Proof.Machine

/-- What the injectors make of a unit: passed with masks XORed in as (POS, MASK), dropped, or held. -/
inductive InjOut where
  | pass (masks : List (Nat × Nat))
  | drop
  | hold
deriving DecidableEq, Repr

/-- A unit meets the injectors of its target in ascending index (R475 to R478). -/
def injMeet (d : Dev) (kind index dir u : Nat) : Nat → Nat → Rep → List (Nat × Nat) → Rep × InjOut
  | 0, _, r, l => (r, .pass l)
  | n + 1, i, r, l =>
    if injOn d r i kind index dir then
      let (hit, x) := injCount d i (injOf r i)
      let fin := decide (x.state = 2)
      let r := setInj r i (if hit then { x with last := u } else x)
      let r := if hit && fin then raiseVec d r pgPROV (2 ^ i) else r
      if hit then
        let act := rd d pgPROV (INJ.INJ_TGT_ACTION i)
        if act = 0 then (r, .drop)
        else if act = 1 then
          injMeet d kind index dir u n (i + 1) r
            (l ++ [(rd d pgPROV (INJ.INJ_SEL_POS i), rd d pgPROV (INJ.INJ_MASK_MASK i))])
        else (setInj r i { injOf r i with held := some [u, kind, index, dir], skip := true }, .hold)
      else injMeet d kind index dir u n (i + 1) r l
    else injMeet d kind index dir u n (i + 1) r l

/-! Slots -/

def slots16 : List Nat := List.range 16
def slots8 : List Nat := List.range 8

def nodeId (d : Dev) : Nat := rd d pgPRB PRB.NODE_NODE_ID
/-- Frames are searched and sent (R214, R242). -/
def linkOn (d : Dev) : Bool :=
  rdB d pgLNK LNK.LNK_CTRL_EN && decide (nodeId d ≠ 0) && rdB d pgLNK LNK.LNK_STAT_MODEM

/-- Spans that overlap. -/
def overlaps (x y : SegDef) : Bool := decide (x.lo2 < y.hi2 ∧ y.lo2 < x.hi2)

/-- Segments i and j have one direction and overlapping spans. -/
def alike (d : Dev) (i j : Nat) : Bool := (defOf d i).uplink == (defOf d j).uplink && overlaps (defOf d i) (defOf d j)

def lsnSeg (d : Dev) (l : Nat) : Nat := rd d pgLSN (LSN.LSN_CFG_SEG l)
/-- The listening slot works (R215). -/
def lsnValid (d : Dev) (l : Nat) : Bool := rdB d pgLSN (LSN.LSN_CFG_EN l) && isActive d (lsnSeg d l)
def lsnTdd (d : Dev) (l : Nat) : Bool := lsnValid d l && isTdd d (lsnSeg d l)
/-- The frame search runs on the slot, deafness aside. -/
def searching (d : Dev) (l : Nat) : Bool :=
  linkOn d && lsnValid d l && ! lsnTdd d l && rdB d pgLSN (LSN.LSN_CFG_FRAMES l)

def rxOf (d : Dev) (l : Nat) : Rx := tget (fun _ => rx0) d.lnk.rx l
def modLnk (d : Dev) (f : Lnk → Lnk) : Dev := { d with lnk := f d.lnk }
def modRx (d : Dev) (l : Nat) (f : Rx → Rx) : Dev :=
  modLnk d fun k => { k with rx := tset (fun _ => rx0) k.rx l (f (rxOf d l)) }

def talkOf (d : Dev) (t : Nat) : Talk := tget (fun _ => talk0) d.lnk.talk t
def modTalk (d : Dev) (t : Nat) (f : Talk → Talk) : Dev :=
  modLnk d fun k => { k with talk := tset (fun _ => talk0) k.talk t (f (talkOf d t)) }

/-- The slot's segment overlaps the span of a frame being sent, or of one that ended less than a code period ago (R224). -/
def deafNow (d : Dev) (l : Nat) : Bool :=
  let x := defOf d (lsnSeg d l)
  slots8.any fun t => (talkOf d t).span.any fun s => decide (s.1 < x.hi2 ∧ x.lo2 < s.2)

/-- LSN_STAT.RX. -/
def rxState (d : Dev) (l : Nat) : Nat :=
  if searching d l then (if deafNow d l then rxDEAF else (rxOf d l).state) else rxOFF

def tlkSeg (d : Dev) (t : Nat) : Nat := rd d pgLTX (LTX.TLK_CFG_SEG t)
def tlkUsed (d : Dev) (t : Nat) : Bool := rdB d pgLTX (LTX.TLK_CFG_EN t)
/-- The talking slot's segment is active and FDD and holds the branch (R216). -/
def tlkValid (d : Dev) (t : Nat) : Bool :=
  tlkUsed d t && isActive d (tlkSeg d t) && ! isTdd d (tlkSeg d t) && hasOut d (tlkSeg d t) (rd d pgLTX (LTX.TLK_CFG_BRANCH t))

def sendingOf (d : Dev) (t : Nat) : Option Msg := (talkOf d t).msg
def heldTxOf (d : Dev) (t : Nat) : Option (Msg × Bool) := tget (fun _ => none) d.lnk.heldTx t
def setHeldTx (d : Dev) (t : Nat) (m : Option (Msg × Bool)) : Dev :=
  modLnk d fun k => { k with heldTx := tset (fun _ => none) k.heldTx t m }

/-- Types in the order in which they are sent (R222). -/
def msgOrder : List Nat := [mACK, mYIELD, mREPORT, mHELLO]

/-- The message a talking slot sends next: not yet sent on it, and not held on it. -/
def nextMsg (d : Dev) (t : Nat) : Option Msg :=
  let free := d.lnk.txq.filter fun m =>
    ! m.sent.contains t && (match heldTxOf d t with | some (h, _) => decide (h.seq ≠ m.seq) | none => true)
  msgOrder.findSome? fun ty => free.find? fun m => decide (m.typ = ty)

/-- The slot has a frame to send: a held one that is free to go, or a message. -/
def txReady (d : Dev) (t : Nat) : Bool :=
  (match heldTxOf d t with | some (_, ok) => ok | none => false) || (nextMsg d t).isSome

/-- TLK_STAT.STATE (Table 8.10). A slot not in use is IDLE. -/
def tlkState (d : Dev) (t : Nat) : Nat :=
  if ¬ tlkUsed d t then 0
  else if ¬ tlkValid d t then 4
  else if (sendingOf d t).isSome then 3
  else if ¬ linkOn d ∨ ¬ txReady d t then 0
  else if (talkOf d t).back.isSome then 2 else 1

/-- A reception on a slot whose search does not run, or that has become DEAF, is abandoned (R224). -/
def rxTidy (d : Dev) (l : Nat) : Dev :=
  if ¬ searching d l then modRx d l fun _ => rx0
  else if deafNow d l then
    let d := if (rxOf d l).state = rxSEARCH then d else bump d pgLNK LNK.LNK_CNT3_DEAF_ABORT
    modRx d l fun _ => rx0
  else d

/-- A TLK_CFG write that waited for the frame's end takes effect (R243). -/
def cfgTake (d : Dev) (t : Nat) : Dev :=
  match tget (fun _ => none) d.lnk.cfgWait t with
  | some w => setReg (modLnk d fun k => { k with cfgWait := tset (fun _ => none) k.cfgWait t none }) pgLTX (0x40 + 8 * t) w
  | none => d

/-- A frame whose slot may no longer send is cut short (R214, R216, R242). -/
def txTidy (d : Dev) (t : Nat) : Dev :=
  let d := if linkOn d then d else modTalk d t fun k => { k with span := none }
  if (sendingOf d t).isNone ∨ (linkOn d = true ∧ tlkValid d t = true) then d
  else cfgTake (modTalk d t fun k => { k with msg := none, chips := false, syms := [] }) t

/-- A message has gone out on every talking slot that is not INVALID (R222). -/
def msgDone (d : Dev) (m : Msg) : Bool :=
  decide (m.sent ≠ []) && (slots8.filter (tlkValid d)).all fun t => m.sent.contains t
/-- Messages sent on all slots leave the queue; a GAIN_YIELD then awaits its ACK (R225). -/
def txSweep (d : Dev) : Dev :=
  let done := d.lnk.txq.filter (msgDone d)
  modLnk d fun k =>
    { k with txq := k.txq.filter fun q => ! done.contains q,
             acks := k.acks ++ done.filter fun q => decide (q.typ = mYIELD) }

/-- The link after a change of its slots, its segments or its switches. -/
def linkTidy (d : Dev) : Dev := txSweep (slots16.foldl rxTidy (slots8.foldl txTidy d))

/-! The neighbour table -/

def nbOf (d : Dev) (i : Nat) : Nb := tget (fun _ => nb0) d.lnk.nbs i
def setNb (d : Dev) (i : Nat) (e : Nb) : Dev := modLnk d fun k => { k with nbs := tset (fun _ => nb0) k.nbs i e }
/-- The index of a neighbour's entry. -/
def nbFind (d : Dev) (id : Nat) : Option Nat :=
  (d.lnk.nbs.find? fun e => decide (e.2.id = id) && decide (e.2.state ≠ nbEMPTY)).map (·.1)
def pairOf (e : Nb) (l : Nat) : NbPair := tget (fun _ => nbPair0) e.pairs l
def setPair (e : Nb) (l : Nat) (p : NbPair) : Nb := { e with pairs := tset (fun _ => nbPair0) e.pairs l p }

/-- CENTRE values within ±1 kHz (R217). -/
def near (a b : Nat) : Bool := decide (a ≤ b + 1000 ∧ b ≤ a + 1000)

/-- The neighbour's span that matches slot l in direction, centre and rate. -/
def spanFor (d : Dev) (e : Nb) (l : Nat) : Option Span :=
  let x := defOf d (lsnSeg d l)
  e.spans.find? fun s => decide (s.dir = b2n x.uplink ∧ s.rate = x.rate) && near s.centre x.centre
/-- The neighbour's latest report, and its latest reported yield, for slot l's span. -/
def repFor (d : Dev) (e : Nb) (l : Nat) : Option NbRep :=
  let x := defOf d (lsnSeg d l)
  e.reps.find? fun s => decide (s.dir = b2n x.uplink) && near s.centre x.centre
def yieldFor (d : Dev) (e : Nb) (l : Nat) : Int :=
  let x := defOf d (lsnSeg d l)
  match e.yields.find? fun s => decide (s.2.1 = b2n x.uplink) && near s.1 x.centre with
  | some (_, _, y) => y
  | none => 0

/-- A pair exists: the slot works and the spans match. -/
def isPair (d : Dev) (e : Nb) (l : Nat) : Bool := decide (e.state ≠ nbEMPTY) && lsnValid d l && (spanFor d e l).isSome

/-- Cap source 3 (R238): the least K over the pairs whose slot covers the segment. -/
def neighCap (d : Dev) (n : Nat) : Int :=
  d.lnk.nbs.foldl (fun m e => e.2.pairs.foldl (fun m p =>
    if isPair d e.2 p.1 && alike d (lsnSeg d p.1) n then min m p.2.k else m) m) 2200

/-- Seconds since a loop period, saturating at 65,535. -/
def secsSince (d : Dev) (t : Option Nat) : Nat :=
  match t with
  | some t => min 65535 ((d.devLoop - t) / 32000)
  | none => 65535

/-- The neighbour window (Table 8.8). -/
def peekNb (d : Dev) (off : Nat) : Nat :=
  let e := nbOf d (rd d pgLNK LNK.NB_SEL_IDX)
  let l := rd d pgLNK LNK.NB_SEL_SLOT
  let p := pairOf e l
  let rep := repFor d e l
  if off = 0x84 then
    e.id % 16384 * 65536 + b2n e.pin * 32768 + b2n (decide (e.spans ≠ []) && e.report.isNone) * 16384
      + b2n e.noAck * 8192 + b2n p.boundIn * 4096
      + b2n (match rep with | some r => r.bound | none => false) * 2048 + b2n p.owe * 1024 + e.state
  else if off = 0x88 then
    (match p.cIn with | some c => u16 c | none => 0x8000) * 65536
      + (match rep with | some r => u16 r.cIn | none => (match p.cIn with | some c => u16 c | none => 0x8000))
  else if off = 0x8C then
    (match rep, spanFor d e l with | some r, _ => u16 r.gf | none, some s => u16 s.gf | none, none => 0x8000) * 65536
      + u16 (yieldFor d e l)
  else if off = 0x90 then (match p.lp with | some z => u16 z | none => 0x8000) * 65536 + u16 p.k
  else secsSince d e.heard * 65536 + secsSince d e.report

/-- Entries in use, and pending messages. -/
def nbCount (d : Dev) : Nat := (d.lnk.nbs.filter fun e => decide (e.2.state ≠ nbEMPTY)).length
def txPending (d : Dev) : Nat := min 1023 d.lnk.txq.length

/-- LSN_STAT and TLK_STAT as they read; `w` is the register's stored word. -/
def peekLsn (d : Dev) (l w : Nat) : Nat :=
  w / 65536 * 65536 + rxState d l * 256 + (rxOf d l).sf * 64 + b2n (lsnTdd d l) * 2 + b2n (lsnValid d l)
def peekTlk (d : Dev) (t w : Nat) : Nat := w / 65536 * 65536 + tlkState d t

end Sys2Proof.Machine
end

