-- ==== Sys2Proof/Machine/Record.lean ====
section
/-!
DEFINITION. Reading a register without side effects, Tally records, flushes, and the records of fault events.
-/

namespace Sys2Proof.Machine

/-- INT_PEND of a page (Table 15.1). -/
def intPend (h : Hdr) : Word := h.raw &&& ~~~ h.mask

/-- Some page of a group has INT_PEND (R402). -/
def groupPend (d : Dev) (g : Nat) : Bool := d.rep.hdr.any fun e => decide (e.1 / 512 = g) && decide (intPend e.2 ≠ 0)

/-- Bit b for each b below n that a test holds of. -/
def bitsOf (p : Nat → Bool) : Nat → Nat
  | 0 => 0
  | n + 1 => bitsOf p n + (if p n then 2 ^ n else 0)

/-- SHADOW_CTRL as it reads. -/
def shadowCtrl (h : Hdr) : Nat :=
  h.commitCnt % 65536 * 65536 + b2n h.refused * 16 + b2n h.pending * 8 + b2n h.readActive * 4

/-- BUSY: a commit pending or a shadow copy in progress (Table 15.1). A soft reset takes one command here. -/
def pageBusy (d : Dev) (page : Nat) : Bool :=
  (hdr d page).pending
    || (match kindOf page with
        | (.seg, _) => rdB d page SEG.COEF_STAT_COPYING
        | (.loop, _) => rdB d page LOOP.COEF_STAT_COPYING
        | _ => false)

/-- The start step in which a page's block is first initialized (DESIGN CHOICE, log entry 25: the spec does not list it;
the pages usable on the boot ROM are those of R445). -/
def readyStep (page : Nat) : Nat :=
  match (kindOf page).1 with
  | .pwrGlb | .thmGlb | .thmSegw | .dcf => 1
  | .ident | .glbMode | .glbClk | .glbIrq | .hostGlb | .fltGlb | .fltSrc | .talGlb | .talSnap | .talRead | .grn | .boot
  | .img | .trust => 2
  | .ring | .dma | .cap | .gq | .queue => 4
  | .wvl => 5
  | .conv | .convGlb => 6
  | .monGlb | .monSeq | .monRes | .monCorr => 8
  | _ => 3
/-- The pages usable in a SAFE on the boot ROM (R445). -/
def romPage (page : Nat) : Bool :=
  match (kindOf page).1 with
  | .ident | .glbMode | .hostGlb | .boot | .img | .trust => true
  | _ => false
/-- READY (Table 15.1). -/
def pageReady (d : Dev) (page : Nat) : Bool :=
  (hdr d page).enable
    && (decide (readyStep page ≤ d.boot.passed) || (decide (d.boot.phase = .ended) && romPage page))

/-- A read of a header offset. -/
def peekHdr (d : Dev) (page off : Nat) : Nat :=
  let h := hdr d page
  if off = 0x00 then typeOf page * 65536 + instOf page
  else if off = 0x04 then d.part.pageRev % 4294967296
  else if off = 0x08 then b2n h.lock * 4 + b2n h.enable
  else if off = 0x0C then h.errOffs % 4096 * 65536 + b2n h.error * 4 + b2n (pageBusy d page) * 2 + b2n (pageReady d page)
  else if off = 0x10 then h.raw.toNat
  else if off = 0x14 then h.mask.toNat
  else if off = 0x18 then (intPend h).toNat
  else if off = 0x20 then shadowCtrl h
  else 0

/-- A register as its page reads it: RWS bits from the shadow bank unless READ_ACTIVE is 1 (R11). -/
def peekPlain (d : Dev) (page off : Nat) : Nat :=
  match rowAt page off with
  | none => 0
  | some r =>
    if (hdr d page).readActive then (reg d page off).toNat
    else ((reg d page off &&& ~~~ BitVec.ofNat 32 r.rws) ||| (regSh d page off &&& BitVec.ofNat 32 r.rws)).toNat

/-- The record page that a window register selects, for offsets behind a window. -/
def windowPage (d : Dev) (page off : Nat) : Nat :=
  if page = pgNPSW ∧ 0x44 ≤ off then pgNPS (rd d pgNPSW NPS.NPS_SEL_SEG)
  else if page = pgNPGW ∧ 0x44 ≤ off then pgGRP (rd d pgNPGW GRP.GRP_SEL_GRP)
  else if page = pgTHSW ∧ 0x44 ≤ off then pgSHED (rd d pgTHSW SHED.SHED_SEL_SEG)
  else if page = pgSNAP ∧ 0x44 ≤ off then pgSNL (rd d pgSNAP SNAP.SNAP_SEL_LIST)
  else if 0x10 ≤ page ∧ page ≤ 0x1F ∧ 0x84 ≤ off ∧ off ≤ 0xC8 then pgPAT (rd d page PAT.PAT_SEL_SEG)
  else page

/-- Sources by number (Table 16.2): class, home page, force bit. -/
def srcInfo (s : Nat) : Option (Nat × Nat × Nat) :=
  if s < 5 then some (2, pgCLK, s)
  else if s = 5 then some (2, pgLGLB, 0)
  else if s = 6 then some (2, pgFLT, 0)
  else if s = 7 then some (2, pgFLT, 1)
  else if s < 32 then none
  else if s < 44 then some (0, pgCONV (s - 32), 0)
  else if s < 48 then some (0, pgDCF (s - 44), 0)
  else if s < 64 then none
  else if s < 68 then some (0, pgTX (s - 64), 0)
  else if s < 72 then some (0, pgTX (s - 68), 1)
  else if s < 76 then some (0, pgTX (s - 72), 2)
  else if s < 80 then some (0, pgTX (s - 76), 3)
  else if s < 84 then some (2, pgTX (s - 80), 4)
  else if s < 88 then some (0, pgEXT (s - 84), 0)
  else if s < 96 then none
  else if s < 128 then some (1, pgWVL (s - 96), 0)
  else if s < 131 then some (0, pgFLT, s - 124)
  else if s < 137 then some (1, pgFLT, s - 124)
  else if s < 160 then none
  else if s < 162 then some (0, pgMON, s - 160)
  else if s = 162 then some (0, pgPWR, 0)
  else if s < 177 then some (0, pgTHM, s - 163)
  else if s < 192 then none
  else if s < 208 then some (0, pgDMA, s - 192)
  else if s = 208 then some (0, pgHOST, 0)
  else if s = 209 then some (1, pgHOST, 1)
  else if s < 224 then none
  else if s = 224 then some (1, pgTAL, 0)
  else if s = 225 then some (1, pgTAL, 1)
  else if s = 226 then some (0, pgTAL, 2)
  else if s = 227 then some (1, pgBOOT, 0)
  else none

def srcClass (s : Nat) : Nat :=
  match srcInfo s with
  | some (c, _, _) => c
  | none => 0

def srcHome (s : Nat) : Nat :=
  match srcInfo s with
  | some (_, p, _) => p
  | none => 0

/-- A sticky source of a class. -/
def stickyOf (r : Rep) (cls : Nat) : Bool :=
  (List.range 256).any fun s => r.flt.sticky.getLsbD s && decide (srcInfo s ≠ none) && decide (srcClass s = cls)

/-- A queue block's live registers. -/
def peekQueue (d : Dev) (page off : Nat) : Nat :=
  let b := (off - 0x40) / 0x100
  let o := (off - 0x40) % 0x100
  let k := if page = pgGQ then qGlob b else 4 * (page - 0x1000) + b
  let q := queueOf d.rep k
  let lvl := rd d page (QB.Q_WM_LEVEL b)
  if o = 0x0C then
    b2n (decide (lvl ≠ 0 ∧ lvl ≤ qItems q)) * 2147483648 + b2n q.wmLatch * 1073741824 + b2n q.overflow * 536870912
      + effPrio d q * 16777216 + qItems q
  else if o = 0x10 then qFill q
  else if o = 0x14 then q.next * 65536 + q.lastDlv
  else if o = 0x1C then q.dropped * 65536 + q.flushed
  else if o = 0x20 then q.stray * 65536 + q.partials
  else peekPlain d page off

/-- BUF_DATA as it reads. -/
def bufEntry (d : Dev) : Nat :=
  let b := rd d pgLGLB LGLB.BUF_SEL_BUF
  let i := rd d pgLGLB LGLB.BUF_IDX_IDX
  if b < 8 then tget (fun _ => 0) d.trace.bufs (4096 * b + i)
  else if b = 8 then tget (fun _ => 0) d.trace.resp (i % 1024) else 0

/-- The value a read of a register returns, without the read's side effects (R420). -/
def peekOwn (d : Dev) (page off : Nat) : Nat :=
  match (kindOf page).1 with
  | .glbMode =>
    if off = 0x40 then
      (if rd d pgBOOT BOOT.BOOT_STAT_ALT ≠ 0 then 65536 else 0) + d.modeCause * 4096 + b2n d.testFromSafe * 256
        + modeCode d.prev * 16 + modeCode d.mode
    else peekPlain d page off
  | .glbIrq =>
    if off = 0x40 then bitsOf (groupPend d) 32
    else if off = 0x48 then b2n d.rep.errValid * 2147483648 + d.rep.errPage
    else if off = 0x4C then d.rep.errCnt
    else if 0x80 ≤ off ∧ off < 0xC0 then
      bitsOf (fun b => decide (intPend (hdr d (512 * rd d pgIRQ IRQ.SUM_SEL_GRP + 32 * ((off - 0x80) / 4) + b)) ≠ 0)) 32
    else peekPlain d page off
  | .seg =>
    let n := (kindOf page).2
    if off = 0x64 then peekPlain d page off / 8 * 8 + segState d n
    else if off = 0x74 then dcbStat d n
    else if off = 0x824 then
      peekPlain d page off / 65536 * 65536
        + (match (isoRt d n).time with | some t => min 65535 ((d.devLoop - t) / 320) | none => 65535)
    else if off = 0x848 ∨ off = 0x84C then peekIr d n off
    else peekPlain d page off
  | .loopGlb => if off = 0x80 then bufEntry d else peekPlain d page off
  | .ext =>
    if off = 0x70 then capsWord d (kindOf page).2 (rd d page EXT.CAPS_IDX_IDX) else peekPlain d page off
  | .lnkGlb =>
    if 0x84 ≤ off ∧ off < 0x98 then peekNb d off
    else if off = 0x60 then peekPlain d page off / 512 * 512 + nbCount d
    else peekPlain d page off
  | .lnkLsn =>
    if 0x40 ≤ off ∧ off < 0x140 ∧ off % 16 = 4 then peekLsn d ((off - 0x40) / 16) (peekPlain d page off)
    else peekPlain d page off
  | .lnkTx =>
    if off = 0x80 then txPending d
    else if 0x40 ≤ off ∧ off < 0x80 ∧ off % 8 = 4 then peekTlk d ((off - 0x40) / 8) (peekPlain d page off)
    else peekPlain d page off
  | .pattern =>
    if off = 0xC8 then patStat d (kindOf page).2 else peekPlain d page off
  | .air =>
    if page = 0x10 ∧ off = 0xDC then d.devLoop % 4294967296
    else if page = 0x10 ∧ off = 0xE0 then d.devHi
    else peekPlain d page off
  | .hostGlb =>
    if off = 0x4C then d.rep.storeUsed else if off = 0x50 then d.rep.storeDropped else peekPlain d page off
  | .ring =>
    if 0x40 ≤ off ∧ (off - 0x40) % 0x20 = 0x18 then (ringOf d.rep ((off - 0x40) / 0x20)).head
    else if 0x40 ≤ off ∧ (off - 0x40) % 0x20 = 0x1C then (ringOf d.rep ((off - 0x40) / 0x20)).tail
    else peekPlain d page off
  | .gq => if off < 0x40 then 0 else peekQueue d page off
  | .queue => if off < 0x40 then 0 else peekQueue d page off
  | .fltGlb =>
    let f := d.rep.flt.first
    if off = 0x44 then
      b2n f.valid * 2147483648 + b2n f.overflow * 1073741824 + b2n f.real * 536870912 + b2n f.forced * 268435456
        + f.cls * 16777216 + f.source
    else if off = 0x48 then f.stamp
    else if off = 0x4C then f.ovfCnt * 65536 + f.cycle
    else if off = 0x50 then b2n (stickyOf d.rep 1) * 2 + b2n d.rep.flt.silent
    else if 0x60 ≤ off ∧ off < 0x80 then (d.rep.flt.sticky.extractLsb' (8 * (off - 0x60)) 32).toNat
    else if 0x80 ≤ off ∧ off < 0xA0 then (d.rep.flt.live.extractLsb' (8 * (off - 0x80)) 32).toNat
    else peekPlain d page off
  | .fltSrc =>
    let s := rd d pgFSRC FSRC.SRC_SEL_SOURCE
    let c := tget (fun _ => srcCnt0) d.rep.flt.cnt s
    if off = 0x44 then
      match srcInfo s with
      | some (cl, p, b) => cl * 1073741824 + p * 65536 + b * 256 + 1
      | none => 0
    else if off = 0x48 then c.events * 65536 + c.forced
    else if off = 0x4C then c.last
    else peekPlain d page off
  | .talGlb =>
    let t := d.rep.tally
    if off = 0x44 then b2n t.flushing * 2048 + b2n (decide (4096 ≤ t.first.length)) * 1024 + t.staged.length
    else if off = 0x48 then t.next % 4294967296
    else if off = 0x4C then t.next / 4294967296 % 65536
    else if off = 0x50 then t.dropped * 65536 + t.torn
    else if off = 0x54 then t.opSec
    else if off = 0x58 then t.pcyc
    else if off = 0x5C then t.wall % 4294967296
    else if off = 0x60 then t.wall / 4294967296 % 4294967296
    else if off = 0x68 then t.clearCnt * 65536 + t.annex.length * 8 + rd d pgTAL TAL.CLR_STAT_STATE
    else if off = 0x6C then t.first.length
    else if off = 0x70 then t.last.length
    else peekPlain d page off
  | .prov =>
    if 0x80 ≤ off ∧ off < 0x180 then
      let i := (off - 0x80) / 0x20
      let o := (off - 0x80) % 0x20
      let x := injOf d.rep i
      if o = 0x14 then x.hits else if o = 0x18 then x.seen
      else if o = 0x1C then x.last * 65536 + b2n x.held.isSome * 8 + x.state
      else peekPlain d page off
    else peekPlain d page off
  | .boot =>
    if 0x54 ≤ off ∧ off ≤ 0x60 then
      match d.boot.journal[rd d pgBOOT BOOT.BJ_SEL_IDX]? with
      | none => 0
      | some e =>
        if off = 0x54 then e.attempt % 65536 * 65536 + e.startCause * 4096 + e.step * 256 + e.result * 16
        else if off = 0x58 then e.cause * 16777216 + e.alt * 65536 + e.slot * 32768
        else if off = 0x5C then e.opSec else e.duration
    else if off = 0x4C then rd d pgBOOT BOOT.BOOT_PEND_FT_BUSY * 2 + b2n d.boot.clrAlt
    else peekPlain d page off
  | .img =>
    let stat (s : ImgSlot) (i : Nat) : Nat :=
      s.version / 65536 % 65536 * 65536 + b2n s.bad * 8 + b2n s.valid * 4 + b2n (decide (d.trust.running = some i)) * 2
        + b2n (decide (d.trust.pref = i))
    if off = 0x40 then stat d.trust.slotA 0
    else if off = 0x44 then stat d.trust.slotB 1
    else if off = 0x48 then d.trust.slotB.svn % 65536 * 65536 + d.trust.slotA.svn % 65536
    else if off = 0x5C then d.trust.minSvn
    else peekPlain d page off
  | .trust =>
    let t := d.trust
    let keyAt (n : Nat) : Option PubKey :=
      if n < 8 then tget (fun _ => none) t.opKeys n else if n = 8 then t.attKey else t.imgKeys[n - 9]?
    if off = 0x40 then
      bitsOf (fun k => (tget (fun _ => none) t.opKeys k).isSome) 8 * 256
        + b2n (decide (bitsOf (fun k => (tget (fun _ => none) t.opKeys k).isSome) 8 = 0
            ∧ rd d pgMODE MODE.STRAP_BOOT_MODE = 3))
    else if off = 0x50 then
      (match t.held with | some (_, _, ttl) => ttl | none => 0) * 65536 + rd d pgTRUST TRUST.TOK_STAT_ACTION * 256
        + rd d pgTRUST TRUST.TOK_STAT_STATE
    else if off = 0x54 then t.tokenCnt
    else if off = 0x68 then t.attNext
    else if off = 0x6C then t.attRes
    else if 0xC0 ≤ off ∧ off < 0x104 then
      match keyAt (rd d pgTRUST TRUST.KEY_SEL_KEY) with
      | some k => k.dwords.getD ((off - 0xC0) / 4) 0
      | none => 0
    else peekPlain d page off
  | _ => peekPlain d page off

/-- A condition as NP_PORT and NPS_CSTAT read (Table 9.8). -/
def condStat (c : Cond) : Nat :=
  (match c.backoff with | some t => min 65535 ((t + 31999) / 32000) | none => 0) * 65536 + c.tries * 4096
    + b2n c.watch.isSome * 512 + b2n c.latched * 256 + b2n c.present * 16 + c.level

/-- Bit c for each condition code present on some target. -/
def anyPresent (d : Dev) : Nat :=
  bitsOf (fun c => d.np.conds.any fun e => decide (e.1 / 1024 = c) && e.2.present) 9
    + (if d.np.ops.any (fun e => decide (e.2 ≠ 0)) then 512 else 0)

/-- Quieting's state of a segment (R267, R268): OFF, FULL, IDLE, UNAVAILABLE. RAT code 1 is UMTS (Table 5.1). -/
def quietOf (d : Dev) (n : Nat) : Nat :=
  if ¬ (isActive d n ∧ isUplink d n) then 0
  else if rd d (pgAIR (clockOf d n)) AIR.SRC_CFG_RAT = 1 then 3
  else if ¬ rdB d (pgNPS n) NPS.NPS_CFG_QUIET_EN then 0
  else if d.np.idle.contains n then 2 else 1

/-- The computed registers of a segment's protection record (Table 9.10). -/
def peekNps (d : Dev) (n off : Nat) : Nat :=
  if off = 0x4C then
    (bitsOf (fun c => if c = 9 then decide (opLevel d n ≠ 0) else segCodes.contains c && (condOf d c n).present) 10) * 65536
      + min 15 (trimSteps d n) * 4096 + b2n (segCodes.any fun c => (condOf d c n).latched) * 256
      + segLevel d n * 16 + quietOf d n
  else if off = 0x50 then
    let c := rd d pgNPSW NPS.NPS_SEL_COND
    if segCodes.contains c then condStat (condOf d c n)
    else if c = 9 then b2n (decide (opLevel d n ≠ 0)) * 16 + opLevel d n else 0
  else peekPlain d (pgNPS n) off

/-- The value a read of any BAR0 offset returns (R387). -/
def peek (d : Dev) (page off : Nat) : Nat :=
  if ¬ occupied page then 0
  else if off < 0x40 then peekHdr d page off
  else
    let p := windowPage d page off
    if p = page then
      if page = pgNP ∧ off = 0x58 then b2n (npSilent d) * 2147483648 + portOffMask d * 65536 + anyPresent d
      else if page = pgNP ∧ 0x70 ≤ off ∧ off < 0x80 then condStat (condOf d 5 ((off - 0x70) / 4))
      else peekOwn d page off
    else if page = pgNPSW then peekNps d (rd d pgNPSW NPS.NPS_SEL_SEG) off
    else peekOwn d p off

/-! Tally -/

def modTally (r : Rep) (f : Tally → Tally) : Rep := { r with tally := f r.tally }

def flags0 : TFlags := ⟨false, false, false, false, false, false, false⟩

/-- 1/256 s within the operating second, from the loop-period count (R427). -/
def fracOf (d : Dev) : Nat := d.devLoop % 32000 * 256 / 32000

/-- The snapshot list that matches a record: the enabled list of lowest index (R420). -/
def snapList (d : Dev) (code source : Nat) : Nat → Nat → Option Nat
  | 0, _ => none
  | n + 1, l =>
    let p := pgSNL l
    let cm := rd d p SNAP.SNAP_MATCH_CODE_MASK
    let sm := rd d p SNAP.SNAP_SRC_SRC_MASK
    if rdB d p SNAP.SNAP_CFG_EN ∧ code &&& cm = rd d p SNAP.SNAP_MATCH_MATCH &&& cm
        ∧ source &&& sm = rd d p SNAP.SNAP_SRC_SRC &&& sm
    then some l else snapList d code source n (l + 1)

/-- The page of a snapshot entry: absolute, or SOURCE plus a signed 14-bit field. -/
def snapPage (source pg : Nat) (rel : Bool) : Nat :=
  if rel then (source + (if pg < 8192 then pg else pg + 65536 - 16384)) % 65536 else pg

/-- The snapshots of a record, and whether one of them read an unoccupied or isolated page. -/
def takeSnaps (d : Dev) (source l : Nat) : List (Nat × Nat × Nat) × Bool :=
  let es := (List.range (rd d (pgSNL l) SNAP.SNAP_CFG_COUNT)).map fun j =>
    let pg := snapPage source (rd d (pgSNL l) (SNAP.SNAP_ENT_PAGE j)) (rdB d (pgSNL l) (SNAP.SNAP_ENT_REL j))
    let off := rd d (pgSNL l) (SNAP.SNAP_ENT_OFFSET j)
    let ok := occupied pg && (hdr d pg).enable
    ((pg, off, if ok then peek d pg off else 0), ok)
  (es.map (·.1), es.any fun e => ! e.2)

/-- The Tally pages are isolated (R435). -/
def tallyOut (r : Rep) : Bool := ! (hdrOf r pgTAL).enable

/-- Start a flush: every record staged is taken (R423). It waits during an erase, and none runs in isolation. -/
def startFlush (r : Rep) : Rep :=
  let t := r.tally
  if t.staged.isEmpty || tallyOut r then r
  else if t.flushing || decide (t.erasing ≠ 0) then modTally r fun t => { t with again := true }
  else modTally r fun t => { t with flushing := true, staged := t.staged.map fun s => { s with taken := true } }

/-- The item of a staged record: q14 of the segment it names, or G1 (R419). -/
def noteQueue (code source : Nat) : Nat :=
  let kind := code / 4096
  if (kind = 0 ∨ kind = 1 ∨ kind = 2 ∨ kind = 5) ∧ 0x400 ≤ source ∧ source < 0xC00 then qSeg (source % 0x400) 14
  else qGlob 1

/-- The largest SEQ (Table 17.5). -/
def seqMax : Nat := 281474976710655

/-- Stage a new record, or drop it where every slot is in use (R419, R422, R423). -/
def stageNew (d : Dev) (r : Rep) (x : TRec) : Rep :=
  let t := r.tally
  if 512 ≤ t.staged.length ∨ seqMax < t.next then
    raiseR d (modTally r fun t => { t with dropped := satAdd 16 t.dropped 1, loss := true }) pgTAL 2
  else
    let back := decide (x.wall ≠ 0 ∧ t.lastWall ≠ 0 ∧ x.wall < t.lastWall)
    let x := { x with seq := t.next, flags := { x.flags with loss := t.loss, wallBack := back } }
    let r := modTally r fun t =>
      { t with staged := t.staged ++ [⟨x, false⟩], next := t.next + 1, loss := false, lastWall := x.wall }
    let r := putItemR d r (noteQueue x.code x.source) 0x70 2
      [(x.seq % 4294967296, 32), (x.code, 16), (x.source, 16)]
    if 2 ≤ x.cls ∨ (r.tally.staged.filter fun s => ! s.taken).length = 64 then startFlush r else r

/-- A record with the clocks of the moment. -/
def freshRec (d : Dev) (r : Rep) (code source cls : Nat) (forced : Bool) (snaps : List (Nat × Nat × Nat))
    (part : Bool) : TRec :=
  { seq := 0, area := 0, flags := { flags0 with forced := forced, snapPartial := part }, opSec := r.tally.opSec,
    pcyc := r.tally.pcyc, frac := fracOf d, wall := r.tally.wall, code := code, source := source, rep := 1, cls := cls,
    snaps := snaps, crcOk := true }

/-- Write a Tally record with given snapshots, or repeat the most recently staged one (R419 to R426). Before the ROM
step nothing is staged (R430). -/
def stageWith (d : Dev) (r : Rep) (code source cls : Nat) (forced : Bool) (snaps : List (Nat × Nat × Nat))
    (part : Bool) : Rep :=
  if ! r.tally.on then r
  else
    match r.tally.staged.getLast? with
    | none => stageNew d r (freshRec d r code source cls forced snaps part)
    | some s =>
      if s.rcd.code = code ∧ s.rcd.source = source then
        if s.taken then
          modTally r fun t =>
            { t with pend := t.pend + 1,
                     pendRec := if t.pendRec.isSome then t.pendRec
                                else some (freshRec d r code source cls forced [] false) }
        else if s.rcd.rep < 65535 then
          let x := { s.rcd with
            rep := s.rcd.rep + 1, flags := { s.rcd.flags with saturated := decide (s.rcd.rep + 1 = 65535) } }
          modTally r fun t => { t with staged := t.staged.dropLast ++ [⟨x, false⟩] }
        else stageNew d r (freshRec d r code source cls forced snaps part)
      else stageNew d r (freshRec d r code source cls forced snaps part)

/-- Write a Tally record with the snapshots of the matching list (R420). -/
def stageR (d : Dev) (r : Rep) (code source cls : Nat) (forced : Bool) : Rep :=
  match snapList d code source 64 0 with
  | none => stageWith d r code source cls forced [] false
  | some l => stageWith d r code source cls forced (takeSnaps d source l).1 (takeSnaps d source l).2

def tally (d : Dev) (code source cls : Nat) : Dev := { d with rep := stageR d d.rep code source cls false }

/-- The Tally record of a page event: its code is the INT_RAW bit number (Table 17.3, kind 0). -/
def tallyPage (d : Dev) (page bit : Nat) : Dev := tally d bit page 0

/-- Set an INT_RAW bit and write the page event's record. -/
def raiseTally (d : Dev) (page bit : Nat) : Dev := tallyPage (raise d page bit) page bit

/-! Fault events -/

def modFlt (r : Rep) (f : Collector → Collector) : Rep := { r with flt := f r.flt }

/-- The collector cycle in a loop period that an event registers in is given with it. -/
def latchFault (d : Dev) (r : Rep) (s : Nat) (real forced : Bool) (cycle : Nat) : Rep :=
  let f := r.flt.first
  if ! f.valid then
    raiseR d (modFlt r fun c =>
      { c with first := ⟨true, false, real, forced, srcClass s, s, d.devLoop % 4294967296, cycle, 0⟩ }) pgFLT 1
  else
    let r' := modFlt r fun c => { c with first := { f with overflow := true, ovfCnt := satAdd 16 f.ovfCnt 1 } }
    if f.overflow then r' else raiseR d r' pgFLT 2

/-- The INT_RAW bit of FLT_GLB for a class (Table 16.5). -/
def classBit (cls : Nat) : Nat := if cls = 2 then 4 else if cls = 1 then 8 else 16

/-- A registered event is counted, made sticky, latched, recorded and reported (R407 to R413). `defer`: the Tally
record of sources 224 and 225 waits for the pages' re-admission. -/
def recordFault (d : Dev) (r : Rep) (s : Nat) (real forced : Bool) (cycle : Nat) (defer : Bool) : Rep :=
  let c := tget (fun _ => srcCnt0) r.flt.cnt s
  let limited := decide (128 ≤ s ∧ s ≤ 130)
    && (match c.rec10 with | some t => decide (d.devLoop < t + 320) | none => false)
  let c := { c with events := satAdd 16 c.events 1, forced := if forced then satAdd 16 c.forced 1 else c.forced,
                    last := d.devLoop % 4294967296, rec10 := if limited then c.rec10 else some d.devLoop }
  let r := modFlt r fun f =>
    { f with sticky := f.sticky ||| (1#256 <<< s), cnt := tset (fun _ => srcCnt0) f.cnt s c,
             live := if real then f.live ||| (1#256 <<< s) else f.live }
  let r := latchFault d r s real forced cycle
  let r := raiseR d r pgFLT (classBit (srcClass s))
  if limited then r
  else
    let r :=
      if defer then modTally r fun t => { t with deferred := t.deferred ++ [(s, real, forced)] }
      else stageR d r (0x1000 + s) (srcHome s) (srcClass s + 1) forced
    putItemR d r (qGlob 0) 0x80 2
      [(s, 8), (srcClass s, 2), (b2n forced, 1), (b2n real, 1), (0, 4), (r.flt.first.ovfCnt, 16),
       (d.devLoop % 4294967296, 32)]

/-- Clear LIVE of a source whose cause has ended (R405). -/
def endCause (d : Dev) (s : Nat) : Dev :=
  { d with rep := modFlt d.rep fun f => { f with live := f.live &&& ~~~ (1#256 <<< s) } }

end Sys2Proof.Machine
end

