-- ==== Sys2Proof/Machine/Outputs.lean ====
section
/-!
DEFINITION. Network protection's conditions and actions, the transmit chains they stop and start, and what a stopped
output does to an isolation measurement (R197, R246 to R263, R279 to R283).
-/

namespace Sys2Proof.Machine

/-- VALID of a segment changes: INT_RAW bit 9 (Table 7.13) and a Tally record (R196). -/
def setValid (d : Dev) (n : Nat) (b : Bool) : Dev :=
  if rdB d (pgSEG n) SEG.ISO_STAT_VALID = b then d else raiseTally (wrB d (pgSEG n) SEG.ISO_STAT_VALID b) (pgSEG n) 9

/-- The credit changes; a fall is INT_RAW bit 11 (Table 7.13), with a CANC_EVENT item in q4 (Table 14.6). -/
def setCredit (d : Dev) (n : Nat) (c : Int) : Dev :=
  let fell := decide (c < rdS d (pgSEG n) SEG.CANC_STAT_CREDIT)
  let d := wrS d (pgSEG n) SEG.CANC_STAT_CREDIT c
  if fell then putItem (raise d (pgSEG n) 11) (qSeg n 4) 0x21 1 [(11, 16), (u16 c, 16)] else d

/-- The segment samples of a loop period (Table 4.3). -/
def perSamples (d : Dev) (n : Nat) : Nat := 60 * 2 ^ rd d (pgSEG n) SEG.PATH_CFG_RATE

/-- A cover cycle in segment samples: sixteen code periods of two samples to a chip (Table 7.1, R186, R187). -/
def coverLen (d : Dev) (n : Nat) : Nat := 32 * (2 ^ (10 + 2 * rd d (pgSEG n) SEG.PRB_STAT_LEN_NOW) - 1)

/-- The estimate in progress is discarded: the next begins at the next cover cycle, and measures every branch (R194). -/
def isoDrop (d : Dev) (n : Nat) : Dev :=
  modIso d n fun i =>
    { i with began := (i.phase / coverLen d n + 1) * coverLen d n, cut := d.devLoop, added := [] }

/-- An output branch of a segment stops by an action, a silence or a shutdown: VALID clears, the estimate in progress
is discarded, the taps are held and the credit becomes 0 (R197, R205, Table 7.4). -/
def outputDropped (d : Dev) (n : Nat) : Dev :=
  let d := setCredit (setValid d n false) n 0
  modIso (isoDrop d n) n fun i => { i with cPrev := 0, upd := none }

/-- The active segments with an output on a branch lose it. -/
def branchDropped (b : Nat) (d : Dev) : Dev := forEach (d.act.filter fun n => hasOut d n b) (fun n d => outputDropped d n) d

/-- A protection event waits for its place in the latch's order (R246, R261). -/
def npEvent (d : Dev) (e : NpEv) : Dev := { d with np := { d.np with evs := d.np.evs ++ [e] } }

/-- The target kind of a condition: EMISSION has ports, every other code segments. -/
def condKind (code : Nat) : Nat := if code = 5 then 1 else 0

/-- An event of a condition at its present level. -/
def condEvent (d : Dev) (cls code idx event : Nat) : Dev :=
  let c := condOf d code idx
  npEvent d ⟨cls, code, condKind code, idx, event, c.level, c.tries, c.steps⟩

/-- The back-off before try t in loop periods (Table 9.4). -/
def backoffDelay (t : Nat) : Nat := 1920000 * 2 ^ (min t 7 - 1)

/-- A condition ends: its back-off begins, or its release falls due (R256, R258). The level stays (R254). -/
def npEnd (d : Dev) (code idx : Nat) : Dev :=
  let c := condOf d code idx
  if ¬ c.present then d
  else if c.wait then setCond d code idx { c with present := false, wait := false }
  else
    let d := condEvent d 1 code idx 1
    if c.latched ∨ c.level = 0 then setCond d code idx { c with present := false }
    else if code = 7 ∨ code = 8 then setCond d code idx { c with present := false, rel := true }
    else setCond d code idx { c with present := false, backoff := some (backoffDelay (c.tries + 1)), due := false }

/-! Transmit chains (R279 to R283) -/

/-- The mode lets a chain be ON (R279). -/
def txPermitted (d : Dev) (p : Nat) : Bool :=
  match d.mode with
  | .service => true
  | .recovery => true
  | .start => rampReached d
  | .test => rdB d (pgTX p) TX.TX_CTRL_TEST_UNMUTE
  | .safe => false

/-- The DAC of a port does not feed its amplifier (R65, R77): it is being calibrated, or in TEST its INPUT_SEL takes it away or
mutes it. The chain then shows READY (DESIGN CHOICE, log entry 68). -/
def dacAway (d : Dev) (p : Nat) : Bool :=
  decide (rd d (pgCONV (4 + p)) CONV.CAL_STAT_STATE = 1)
    || (decide (d.mode = .test) && [1, 2].contains (rd d (pgCONV (4 + p)) CONV.CONV_CTRL_INPUT_SEL))

/-- The state a chain is to reach (R279 to R283). -/
def txTarget (d : Dev) (p : Nat) : Nat :=
  if (chainRt d p).load = 2 then txLOADLATCHED
  else if d.supply ≠ .on ∨ d.mode = .safe ∨ ¬ rdB d (pgTX p) TX.TX_CTRL_EN ∨ rdB d (pgTX p) TX.TX_STAT_BIAS_FAIL
      ∨ ¬ monitorPassed d then txOFF
  else if hwHold d p then txSILENCED
  else if (chainRt d p).load = 1 then txLOADOFF
  else if portOff d p ∨ dacAway d p ∨ ¬ txPermitted d p then txREADY
  else txON

/-- STATE changes: INT_RAW bit 0. A chain that leaves ON ends EMISSION and clears the violation count (R291). -/
def txSet (d : Dev) (p st : Nat) : Dev :=
  let was := txState d p
  if st = was then d
  else
    let d := modChain (raise (wr d (pgTX p) TX.TX_STAT_STATE st) (pgTX p) 0) p fun c => { c with since := d.devLoop }
    let d := if st = txON then wr d (pgEMK p) EMK.EM_STAT_VALID 0 else d
    if was = txON then
      let d := modChain (wr d (pgEMK p) EMK.EM_STAT_VCOUNT 0) p fun c =>
        { c with cleanRun := 0, emission := false, sweeping := false, lowRun := 0, clearRun := 0, tripRun := 0 }
      npEnd d 5 p
    else d

/-- A start measures the quiescent current: a burst of the monitor with the pair of slot p (R280, R328), at the next
conversion boundary. -/
def reqBurst (d : Dev) (w : BurstFor) : Dev :=
  let m := d.mon
  let m := { m with bursts := (m.bursts.filter fun b => decide (b.who ≠ w)) ++ [⟨w, 0, 0⟩],
                    cur := if m.cur = .none then .burst else m.cur }
  { d with mon := m }
def txBias (d : Dev) (p : Nat) : Dev :=
  if txState d p = txBIASING then d
  else reqBurst (txSet (modChain d p fun c => { c with drain := true, idq := none }) p txBIASING) (.chain p)

/-- The hardware pull: the gate is at pinch-off without a ramp and cuts a stop's ramp short (R281). -/
def txPull (d : Dev) (p : Nat) : Dev :=
  if hwHold d p then modChain d p fun c => { c with gate := false, rf := false } else d

/-- Move a chain towards its target: the hardware pull at once, a start from the gate ramp or from OFF, or the beginning of
a stop. -/
def txGo (d : Dev) (p : Nat) : Dev :=
  let d := txPull d p
  let t := txTarget d p
  let st := txState d p
  let c := chainRt d p
  if t = txSILENCED then (if c.drain then txSet d p txSILENCED else d)
  else if st = txSTOPPING then d
  else if t = txON then
    if st = txON then d
    else if c.gate ∧ st = txREADY then txSet (modChain d p fun c => { c with rf := true }) p txON
    else txBias d p
  else if t = txREADY then
    if st = txON then txSet d p txSTOPPING
    else if st = txREADY then d
    else txBias d p
  else if t = txOFF then
    if c.drain ∨ c.rf then txSet (modChain d p fun c => { c with rf := c.rf && decide (st = txON) }) p txSTOPPING
    else txSet d p txOFF
  else
    if (st = txON ∨ c.gate) ∧ hwHold d p = false then txSet d p txSTOPPING else txSet d p t

def txGoAll (d : Dev) : Dev := forEach ports4 (fun p d => txGo d p) d

/-- The stop of a chain is complete: RF at zero, the gate at pinch-off; the drain supply stays on but for OFF, where
it is switched off 1 ms later (R281). -/
def txStopped (d : Dev) (p : Nat) : Dev :=
  let d := modChain d p fun c => { c with gate := false, rf := false }
  let t := txTarget d p
  if t = txOFF then d
  else if t = txON then txBias d p
  else txSet d p t

/-! The actions in force -/

/-- The gain written last to a segment. -/
def gainNow (d : Dev) (n : Nat) : Int := rdS d (pgLOOP n) LOOP.GAIN_NOW_GAIN

/-- A reference gain follows its steps: taken when they first leave 0, dropped at 0 (R21, R253, R340). -/
def nextRef (d : Dev) (n steps : Nat) (r : GainRef) : GainRef :=
  if steps = 0 then .none
  else
    match r with
    | .none => if d.written then .at (gainNow d n) else .wait
    | r => r

def trimRef (d : Dev) (n : Nat) : GainRef := tget (fun _ => GainRef.none) d.np.refs n
def setTrimRef (d : Dev) (n : Nat) (r : GainRef) : Dev :=
  { d with np := { d.np with refs := tset (fun _ => GainRef.none) d.np.refs n r } }

/-- Under an action at MUTE or above the tone count is 0 and OSC_TONE and OSC_FE end (R255). -/
def quietEvidence (n : Nat) (d : Dev) : Dev :=
  if npMuted d n then npEnd (npEnd (modSeg d n fun s => { s with toneRun := 0, toneSkip := true }) 0 n) 1 n else d

/-- A head branch is switched off or on through the control channel (R310). -/
def sendBranch (b : Nat) (d : Dev) : Dev :=
  sendMsg d (linkOf b) 3 [b % 2, b2n (! portOff d b)]

/-- A change of conditions or commands takes effect on the outputs (R250, R253). -/
def npApply (old d : Dev) : Dev :=
  let d := forEach d.act (fun n d => setTrimRef d n (nextRef d n (trimSteps d n) (trimRef d n))) d
  let d := if npSilent old = npSilent d then d
    else forEach ports4 (fun k d => emitD d (.containers k (branchSilent d 4)
      (if branchSilent d 4 then [] else ((extRt d k).conts.filter fun c => ! c.1).map fun c => c.2.1))) (raise d pgNP 4)
  let d := if portOffMask old = portOffMask d then d else raise d pgNP 5
  let d := forEach ports4 (fun b d => if portOff d b && ! portOff old b then branchDropped b d else d) d
  let d := forEach heads8
    (fun b d => if portOff d b = portOff old b then d
                else sendBranch b (if portOff d b then branchDropped b d else d)) d
  let d := if npSilent d && ! npSilent old then forEach d.act (fun n d => outputDropped d n) d else d
  forEach d.act quietEvidence (txGoAll d)

/-- ESC fields of a condition (Table 9.3). -/
def escStart (d : Dev) (c : Nat) : Nat := rd d pgESC (ESC.ESC_START c)
def escTop (d : Dev) (c : Nat) : Nat := rd d pgESC (ESC.ESC_TOP c)
def escTrimMax (d : Dev) (c : Nat) : Nat := rd d pgESC (ESC.ESC_TRIM_MAX c)

/-- One climb from a level and a step count (R252). -/
def climbFrom (d : Dev) (code level steps : Nat) : Nat × Nat :=
  if level = 1 ∧ steps < escTrimMax d code then (1, steps + 1)
  else if level < escTop d code then (level + 1, steps)
  else (level, steps)

/-- A condition's level and steps change: an event, and INT_RAW bit 1 where the level rose. -/
def setLevel (d : Dev) (code idx level steps : Nat) : Dev :=
  let c := condOf d code idx
  if c.level = level ∧ c.steps = steps then d
  else
    let d := setCond d code idx { c with level := level, steps := steps, step := d.devLoop }
    let d := condEvent d 3 code idx 2
    if c.level < level ∨ c.steps < steps then raise d pgNP 1 else d

/-- A condition is evaluated: in TEST its EN bit may forbid it (R273). -/
def condEnabled (d : Dev) (code idx : Nat) : Bool :=
  decide (6 < code) || decide (code = 5) || decide (d.mode ≠ .test) || nbit (rdU d (pgNPS idx) NPS.NPS_CFG_EN) code

/-- Raise a condition that is not present, in a mode in which conditions act (R252, R257, R261, R262). -/
def npRaiseNow (d : Dev) (code idx : Nat) : Dev :=
  let c := condOf d code idx
  let d := raise (bump (condEvent d 0 code idx 0) pgNP NP.NP_CNT0_RAISED) pgNP 0
  let d := setCond d code idx
    { c with present := true, wait := false, backoff := none, due := false, rel := false, step := d.devLoop,
             watch := if c.latched ∨ c.backoff.isSome ∨ c.due ∨ c.rel then c.watch else none }
  if c.latched ∨ c.backoff.isSome ∨ c.due ∨ c.rel then d
  else if c.watch.isSome ∧ c.hLevel ≠ 0 then
    let l := climbFrom d code c.hLevel c.hSteps
    let l := if escTop d code < l.1 then (escTop d code, min l.2 (escTrimMax d code)) else l
    let d := setLevel (bump d pgNP NP.NP_CNT1_FAILED) code idx l.1 l.2
    if 8 ≤ c.tries then
      let d := modCond d code idx fun c => { c with latched := true }
      raise (condEvent (bump d pgNP NP.NP_CNT1_LATCHES) 3 code idx 4) pgNP 3
    else d
  else setLevel d code idx (escStart d code) (if escStart d code = 1 then 1 else 0)

/-- A cause raises a condition on a target (R246). Under an action at MUTE or above OSC_TONE and OSC_FE are not raised
(R255); in a mode in which conditions do not act it waits (R259). -/
def npRaise (d : Dev) (code idx : Nat) : Dev :=
  let c := condOf d code idx
  if c.present ∨ ¬ condEnabled d code idx ∨ (code ≠ 5 ∧ ¬ isActive d idx) ∨ (code < 2 ∧ npMuted d idx) then d
  else if ¬ npActs d then setCond d code idx { c with present := true, wait := true }
  else npApply d (npRaiseNow d code idx)

/-- Conditions that waited are raised once the mode permits (R259). -/
def npWake (d : Dev) : Dev :=
  if npActs d then
    d.np.conds.foldl (fun d e =>
      if (condOf d (e.1 / 1024) (e.1 % 1024)).wait then npApply d (npRaiseNow d (e.1 / 1024) (e.1 % 1024)) else d) d
  else d

/-- A CLIMB interval, of 10 ms units, expires (R252): no climb of a condition that is not present, is latched, has CLIMB 0 or
stands at TOP, and none in SAFE (R259). -/
def npClimb (d : Dev) (code idx : Nat) : Dev :=
  let c := condOf d code idx
  if ¬ c.present ∨ c.wait ∨ c.latched ∨ rd d pgESC (ESC.ESC_CLIMB code) = 0 ∨ npActs d = false
      ∨ d.devLoop + 1 < c.step + 320 * rd d pgESC (ESC.ESC_CLIMB code) then d
  else
    let l := climbFrom d code c.level c.steps
    npApply d (setLevel d code idx l.1 l.2)

/-- A restart: the action is removed completely, TRIES becomes the try, the watch begins (R256). -/
def npRestart (d : Dev) (code idx : Nat) : Dev :=
  let c := condOf d code idx
  let d := setCond d code idx
    { c with level := 0, steps := 0, due := false, backoff := none, tries := min 8 (c.tries + 1),
             watch := some (32000 * rd d pgNP NP.NP_TIME_WATCH), hLevel := c.level, hSteps := c.steps }
  raise (condEvent (bump d pgNP NP.NP_CNT0_RESTARTS) 2 code idx 3) pgNP 2

/-- A release under R258. -/
def npRelease (d : Dev) (code idx : Nat) : Dev :=
  let d := setLevel d code idx 0 0
  modCond d code idx fun c => { c with rel := false }

/-- Deactivation clears a segment's non-latched levels, steps, presences and back-offs (R259): each ending and each change of
level is an event (R246). -/
def condOut (d : Dev) (n code : Nat) : Dev :=
  let c := condOf d code n
  let d := if c.present ∧ ¬ c.wait then condEvent d 1 code n 1 else d
  let d := if c.latched then d else setLevel d code n 0 0
  modCond d code n fun c => { c with present := false, wait := false, backoff := none, due := false, rel := false }
def npDeactivated (d : Dev) (n : Nat) : Dev :=
  let d := segCodes.foldl (fun d code => condOut d n code) d
  let d := { d with np := { d.np with idle := d.np.idle.filter (· ≠ n), slotActive := d.np.slotActive.filter (· ≠ n),
                                       slotSyms := tset (fun _ => 0) d.np.slotSyms n 0,
                                       ovlRun := tset (fun _ => 0) d.np.ovlRun n 0,
                                       nrLow := tset (fun _ => none) d.np.nrLow n none } }
  setTrimRef (modSeg d n fun s => { s with toneRun := 0 }) n .none

end Sys2Proof.Machine
end

