-- ==== Sys2Proof/Machine/Host.lean ====
section
/-!
DEFINITION. The host interface: link and endpoint resets, rings, queues, vectors, DMA channels, capture channels and
the capture window (R356 to R384).
-/

namespace Sys2Proof.Machine

/-- Capture memory: 24 GiB of bytes; a byte nothing has written reads 0 (DESIGN CHOICE, log entry 3). -/
abbrev Mem := Table Byte
def capBytes : Nat := 25769803776
def memRead (m : Mem) (a : Nat) : Byte := tget (fun _ => 0) m a
def memWrite (m : Mem) (a : Nat) (b : Byte) : Mem := tset (fun _ => 0) m a b
/-- Store bytes from an address upwards. -/
def memStore : Mem → Nat → List Byte → Mem
  | m, _, [] => m
  | m, a, b :: t => memStore (memWrite m a b) (a + 1) t
/-- Read `n` bytes. -/
def memLoad (m : Mem) (a : Nat) : Nat → List Byte
  | 0 => []
  | n + 1 => memRead m a :: memLoad m (a + 1) n

/-- Capture memory is in use: DRAM has passed its start step and no isolation holds it (R380, Table 16.2). -/
def dramUp (d : Dev) : Bool := decide (4 ≤ d.boot.passed) || decide (d.boot.phase = .ended)
def capUsable (d : Dev) : Bool := dramUp d && ! d.rep.flt.away.contains 131

/-- The word of a real sample (Table 3.3), and of a complex one (R73). -/
def sampleWord (x : BitVec 14) (ovr inv : Bool) : Nat := x.toNat * 4 + b2n ovr * 2 + b2n inv
def leBytes (n : Nat) : Nat → List Byte
  | 0 => []
  | k + 1 => BitVec.ofNat 8 n :: leBytes (n / 256) k
def realBytes (x : Sample) : List Byte := leBytes (sampleWord x.i x.ovr x.inv) 2
def complexBytes (x : Sample) : List Byte :=
  leBytes (sampleWord x.i x.ovr x.inv * 65536 + sampleWord x.q x.ovr x.inv) 4
/-- The number a list of bytes spells, lowest first. -/
def leNat : List Byte → Nat
  | [] => 0
  | b :: t => b.toNat + 256 * leNat t
/-- Bytes as dwords, lowest first. -/
def byteDwords : List Byte → List Nat
  | a :: b :: c :: e :: t => leNat [a, b, c, e] :: byteDwords t
  | [] => []
  | l => [leNat l]

/-! The endpoint (R358 to R363) -/

def rings64 : List Nat := List.range 64
def dmas16 : List Nat := List.range 16
def caps32 : List Nat := List.range 32

/-- DMA states (Table 14.13). -/
def dmaIDLE : Nat := 0
def dmaRUNNING : Nat := 1
def dmaHALTED : Nat := 2

/-- Descriptors in flight over all channels (R378). -/
def setInflight (d : Dev) : Dev :=
  wr d pgHOST HOST.INFLIGHT_DESC ((dmas16.map fun c => rd d pgDMA (DMA.DMA_STAT_INFLIGHT c)).foldl (· + ·) 0)

/-- A ring is disabled. -/
def ringOff (r : Nat) (d : Dev) : Dev := wr d pgRING (RING.RING_CFG_EN r) 0

/-- A DMA channel is disabled: descriptors in flight are abandoned and CONS is not advanced. -/
def dmaOff (c : Nat) (d : Dev) : Dev :=
  wr (wr (wr d pgDMA (DMA.DMA_CFG_EN c) 0) pgDMA (DMA.DMA_STAT_INFLIGHT c) 0) pgDMA (DMA.DMA_STAT_STATE c) dmaIDLE

/-- The master is lost (R359, R363). -/
def masterLost (d : Dev) : Dev :=
  let d := setInflight (forEach dmas16 dmaOff (forEach rings64 ringOff d))
  wr d pgHOST HOST.MASTER_READY 0

/-- The endpoint's own state returns to reset (R359). -/
def endpointReset (d : Dev) : Dev := { d with rep := { d.rep with msix := [], msixEn := false, msixMask := false } }

/-- A Function Level Reset, a hot reset and a link that goes down (R359). -/
def pcieReset (d : Dev) : Dev := endpointReset (if agentMaster d then d else masterLost d)

/-- The stream budget in MB/s at the link in force (R383). -/
def speedQuarters (d : Dev) : Nat :=
  match rd d pgHOST HOST.LINK_STAT_SPEED with
  | 3 => 4
  | 2 => 2
  | 1 => 1
  | _ => 0
def setBudget (d : Dev) : Dev :=
  let num := 6500 * rd d pgHOST HOST.LINK_STAT_WIDTH * speedQuarters d * (if d.mps128 then 9 else 10)
  wr d pgHOST HOST.STREAM_BUDGET (quot num 320).toNat

/-- LINK_STAT takes the link in force; a change of UP is INT_RAW bit 0. -/
def setLink (d : Dev) (up : Bool) (width speed : Nat) : Dev :=
  let was := rdB d pgHOST HOST.LINK_STAT_UP
  let d := wrB d pgHOST HOST.LINK_STAT_UP up
  let d := wr (wr d pgHOST HOST.LINK_STAT_WIDTH width) pgHOST HOST.LINK_STAT_SPEED speed
  let d := setBudget d
  if was = up then d else raise d pgHOST 0

/-- The link trains (R356). Speed codes: 1 = 2.5, 2 = 5, 3 = 8 GT/s. -/
def pcieUp (d : Dev) (width speed : Nat) (extTag mps128 : Bool) : Dev :=
  setLink { wrB d pgHOST HOST.LINK_STAT_EXT_TAG extTag with mps128 := mps128 } true width speed

/-- The link goes down (R359), and so does PERST# (R466). -/
def pcieDown (d : Dev) : Dev := pcieReset (wr (setLink d false 0 0) pgHOST HOST.LINK_STAT_EXT_TAG 0)

/-- The link retrains while up (R383): running channels go on. -/
def pcieRetrain (d : Dev) (width speed : Nat) : Dev :=
  if rdB d pgHOST HOST.LINK_STAT_UP then setLink d true width speed else d

/-- A reset of the agent's cores (R363). -/
def agentReset (d : Dev) : Dev := if agentMaster d then masterLost d else d

/-! MSI-X (R358) -/

/-- Send the message of each vector that is pending and now unmasked. -/
def sendPending (d : Dev) : Dev :=
  d.rep.msix.foldl (fun d e =>
    if e.2.pend ∧ ¬ e.2.masked ∧ ¬ d.rep.msixMask ∧ d.rep.msixEn then
      { d with rep := emit { d.rep with msix := tset (fun _ => msix0) d.rep.msix e.1 { e.2 with pend := false } }
                  (.msix e.1) }
    else d) d

/-- A write of an MSI-X table entry. -/
def msixEntry (d : Dev) (v addr data : Nat) (masked : Bool) : Dev :=
  let e := tget (fun _ => msix0) d.rep.msix v
  sendPending { d with rep := { d.rep with
    msix := tset (fun _ => msix0) d.rep.msix v { e with addr := addr, data := data, masked := masked } } }

/-- A write of MSI-X Enable and Function Mask. -/
def msixControl (d : Dev) (en mask : Bool) : Dev :=
  sendPending { d with rep := { d.rep with msixEn := en, msixMask := mask } }

/-! Rings and queues -/

def pumpRingD (d : Dev) (r : Nat) : Dev := { d with rep := pumpRing d d.rep r }
def modRing (d : Dev) (i : Nat) (f : Ring → Ring) : Dev := { d with rep := setRing d.rep i (f (ringOf d.rep i)) }

/-- A write of TAIL to RING_DB (R370). -/
def ringDoorbell (d : Dev) (r tail : Nat) : Dev :=
  let x := ringOf d.rep r
  if ringSize d r < (x.head + 4294967296 - tail % 4294967296) % 4294967296 then raise d pgRING 0
  else pumpRingD (modRing d r fun x => { x with tail := tail % 4294967296 }) r

/-- A write of RING_CFG.EN (R370). -/
def ringEnable (d : Dev) (r : Nat) (en : Bool) : Dev :=
  let was := rdB d pgRING (RING.RING_CFG_EN r)
  let d := wrB d pgRING (RING.RING_CFG_EN r) en
  if en && ! was then pumpRingD (modRing d r fun _ => ring0) r else d

/-- The moderation interval of a ring ends (R371): one message for the deliveries within it. -/
def ringModEnd (d : Dev) (r : Nat) : Dev :=
  let x := ringOf d.rep r
  let d := modRing d r fun x => { x with modRun := x.modPend, modPend := false }
  if x.modPend && rdB d pgRING (RING.RING_CFG_IE r) then
    { d with rep := sendVec d d.rep (rd d pgRING (RING.RING_CFG_VEC r)) }
  else d

/-- A flush empties a queue at once (R373). `cut` words of an item in progress were still to come, none where it is 0: that
item's header took its sequence number, the item is counted in PARTIAL, and its words in STRAY as they arrive. -/
def queueFlush (d : Dev) (k cut : Nat) : Dev :=
  let q := queueOf d.rep k
  let r := { d.rep with storeUsed := d.rep.storeUsed - qFill q }
  let q := { q with items := [], kept := none, flushed := satAdd 16 q.flushed (qItems q) }
  let d := { d with rep := releaseHeld (setQueue r k q) 3 (injQueue k) 0 8 0 }
  if cut = 0 then d
  else
    let q := { q with next := (q.next + 1) % 65536, partials := satAdd 16 q.partials 1, stray := satAdd 16 q.stray cut }
    raise { d with rep := setQueue d.rep k q } (qPage k) (4 * qBlk k + 2)

/-- A LEVEL_REPORT item of each active segment (Table 14.6). -/
def levelReport (n : Nat) (d : Dev) : Dev :=
  putItem d (qSeg n 8) 0x40 2
    [(rd d (pgSEG n) SEG.LEVEL_IN_IN, 16), (rd d (pgSEG n) SEG.LEVEL_OUT_OUT, 16),
     (rd d (pgLOOP n) LOOP.GAIN_NOW_GAIN, 16), (rd d (pgLOOP n) LOOP.GAIN_NOW_CAP, 16),
     (rd d (pgLOOP n) LOOP.LOOP_STAT_CAP_SRC, 3)]
def levelReports (d : Dev) : Dev := forEach d.act levelReport d

/-! DMA channels (R377 to R379) -/

/-- The collector cycle of an event that a command causes is not given: a free value (R405). -/
def freeCycle (d : Dev) : Nat := Config.freeValue d.free % 37500

/-- A corrected fault source registers a real event; its cause persists or has ended with it (R405). -/
def corrected (d : Dev) (s : Nat) (persists : Bool) : Dev :=
  let d := { d with rep := recordFault d d.rep s true false (freeCycle d) false, free := d.free + 1 }
  if persists then d else endCause d s

/-- Fetched descriptors: those posted, while fewer than 2,048 are in flight (R378). -/
def dmaFetch (d : Dev) (c : Nat) : Dev :=
  if ¬ rdB d pgDMA (DMA.DMA_CFG_EN c) ∨ rd d pgDMA (DMA.DMA_STAT_STATE c) = dmaHALTED then d
  else
    let posted := (rd d pgDMA (DMA.DMA_PROD_PROD c) + 4294967296 - rd d pgDMA (DMA.DMA_CONS_CONS c)) % 4294967296
    let others := rd d pgHOST HOST.INFLIGHT_DESC - rd d pgDMA (DMA.DMA_STAT_INFLIGHT c)
    let d := wr d pgDMA (DMA.DMA_STAT_INFLIGHT c) (min posted (2048 - others))
    setInflight (wr d pgDMA (DMA.DMA_STAT_STATE c) (if posted = 0 then dmaIDLE else dmaRUNNING))

/-- A write of PROD to DMA_DB (R377). -/
def dmaDoorbell (d : Dev) (c prod : Nat) : Dev := dmaFetch (wr d pgDMA (DMA.DMA_PROD_PROD c) prod) c

/-- A halt (R379). -/
def dmaHalt (d : Dev) (c err : Nat) : Dev :=
  let d := wr (wr d pgDMA (DMA.DMA_STAT_STATE c) dmaHALTED) pgDMA (DMA.DMA_STAT_ERR c) err
  let d := setInflight (wr d pgDMA (DMA.DMA_STAT_INFLIGHT c) 0)
  raise (corrected d (192 + c) false) pgDMA c

/-- CONS advances and is written back; the vector follows where the descriptor asks (R377). -/
def dmaAdvance (d : Dev) (c : Nat) (irq : Bool) : Dev :=
  let d := incr d pgDMA (DMA.DMA_CONS_CONS c)
  let wb := rd d pgDMA (DMA.DWB_HI_DMA_WB c) * 4294967296 + rd d pgDMA (DMA.DWB_LO_DMA_WB c)
  let d := emitD d (.memWrite wb [rd d pgDMA (DMA.DMA_CONS_CONS c)])
  let d := if irq && rdB d pgDMA (DMA.DMA_CFG_IE c) then
      { d with rep := sendVec d d.rep (rd d pgDMA (DMA.DMA_CFG_VEC c)) } else d
  dmaFetch d c

/-- A descriptor is valid (Table 14.8, R379). -/
def descOk (x : Desc) : Bool :=
  decide (x.len % 4 = 0 ∧ 4 ≤ x.len ∧ x.len ≤ 67108864 ∧ x.flags < 4 ∧ x.devAddr + x.len ≤ capBytes)

/-- The channel has a descriptor to complete. -/
def dmaReady (d : Dev) (c : Nat) : Bool :=
  rdB d pgDMA (DMA.DMA_CFG_EN c) && decide (rd d pgDMA (DMA.DMA_STAT_STATE c) = dmaRUNNING)
    && decide (0 < rd d pgDMA (DMA.DMA_STAT_INFLIGHT c))

/-! Capture channels (R380 to R383) -/

def capRt (d : Dev) (ch : Nat) : CapCh := tget (fun _ => capCh0) d.capChs ch
def modCap (d : Dev) (ch : Nat) (f : CapCh → CapCh) : Dev :=
  { d with capChs := tset (fun _ => capCh0) d.capChs ch (f (capRt d ch)) }

def capRunning (d : Dev) (ch : Nat) : Bool := decide (rd d pgCAP (CAP.CAP_STAT_STATE ch) = 1)
def capKind (d : Dev) (ch : Nat) : Nat := rd d pgCAP (CAP.CAP_SRC_KIND ch)
def capIndex (d : Dev) (ch : Nat) : Nat := rd d pgCAP (CAP.CAP_SRC_INDEX ch)
def capMode (d : Dev) (ch : Nat) : Nat := rd d pgCAP (CAP.CAP_CTRL_MODE ch)
def capBase (d : Dev) (ch : Nat) : Nat := rd d pgCAP (CAP.CAP_BUF_BASE ch) * 4096
def capSize (d : Dev) (ch : Nat) : Nat := rd d pgCAP (CAP.CAP_LEN_SIZE ch) * 4096

/-- Rate of a source in units of 1.92 Msps (Table 4.3, Table 14.9). -/
def capRate (d : Dev) (ch : Nat) : Nat :=
  if capKind d ch = 3 then 256 else 2 ^ rd d (pgSEG (capIndex d ch)) SEG.PATH_CFG_RATE

/-- The source of a channel is active (Table 14.9). -/
def capActive (d : Dev) (ch : Nat) : Bool :=
  let i := capIndex d ch
  let k := capKind d ch
  if k < 3 then decide (i < 4)
  else if k = 3 then decide (i < 32) && nbit (rd d (pgPORT (i / 8)) PORT.BAND_STAT_ACTIVE) (i % 8)
  else isActive d i && (decide (rd d pgCAP (CAP.CAP_SRC_TAP ch) ≠ 3) || hasOut d i (rd d pgCAP (CAP.CAP_SRC_BRANCH ch)))

/-- Rates of the running streams and of one more channel, in units of 1.92 Msps. -/
def streamUnits (d : Dev) (ch : Nat) : Nat :=
  ((caps32.filter fun c => decide (c = ch) || (capRunning d c && decide (capMode d c = 2))).map (capRate d)).foldl (· + ·) 0

/-- The streams' sum is within the budget (R383), compared exactly. -/
def inBudget (d : Dev) (units : Nat) : Bool :=
  decide (768 * units * 65536 * 320
    ≤ 6500 * 100 * rd d pgHOST HOST.LINK_STAT_WIDTH * speedQuarters d * (if d.mps128 then 9 else 10) * 65472)

/-- STREAM.USED: MB/s of the running stream channels. -/
def setUsed (d : Dev) : Dev :=
  let units : Nat := ((caps32.filter fun c => capRunning d c && decide (capMode d c = 2)).map (capRate d)).foldl (· + ·) 0
  wr d pgHOST HOST.STREAM_USED (quot ((768 * units * 65536 : Nat) : Int) 6547200).toNat

/-- The buffer lies in capture memory and overlaps no running channel's buffer. -/
def capBufOk (d : Dev) (ch : Nat) : Bool :=
  decide (capBase d ch + capSize d ch ≤ capBytes) && caps32.all fun c =>
    decide (c = ch) || ! capRunning d c || decide (capBase d ch + capSize d ch ≤ capBase d c)
      || decide (capBase d c + capSize d c ≤ capBase d ch)

/-- A start is allowed (R381, R383). -/
def capStartOk (d : Dev) (ch : Nat) : Bool :=
  capUsable d && capActive d ch && capBufOk d ch
    && (decide (3 ≤ capKind d ch) || decide ((caps32.filter fun c => capRunning d c && decide (capKind d c < 3)).length < 2))
    && (decide (capMode d ch ≠ 2)
        || (decide (3 ≤ capKind d ch) && decide (rd d pgCAP (CAP.CAP_LEN_SIZE ch) % 16 = 0)
            && decide (32 ≤ rd d pgCAP (CAP.CAP_LEN_SIZE ch))
            && rdB d pgDMA (DMA.DMA_CFG_EN (rd d pgCAP (CAP.CAP_CTRL_DMA_CH ch))) && inBudget d (streamUnits d ch)))

/-- A start of a capture channel (R381), with the place of its first sample in its loop period. -/
def capStart (d : Dev) (ch offs : Nat) : Dev :=
  if capRunning d ch then d
  else if ¬ capStartOk d ch then setError d pgCAP (0x40 + 0x20 * ch + 0x0C)
  else
    let d := wr (wr d pgCAP (CAP.CAP_STAT_STATE ch) 1) pgCAP (CAP.CAP_POS_POS ch) 0
    let d := wr (wr d pgCAP (CAP.CAP_T0_LOOP ch) d.devLoop) pgCAP (CAP.CAP_T1_OFFS ch) offs
    setUsed (modCap d ch fun _ => capCh0)

/-- A channel ends: its state, INT_RAW bit ch and a CAPTURE_DONE item in q9 of its segment or in G2 (R382). -/
def capEnd (d : Dev) (ch st : Nat) : Dev :=
  let d := setUsed (wr d pgCAP (CAP.CAP_STAT_STATE ch) st)
  let k := if capKind d ch = 4 then qSeg (capIndex d ch) 9 else qGlob 2
  putItem (raise d pgCAP ch) k 0x48 2
    [(ch, 8), (st, 8), (0, 16), ((capRt d ch).bytes, 32), (rd d pgCAP (CAP.CAP_T0_LOOP ch), 32)]

/-- Running captures end STOPPED (Table 16.2, source 131). -/
def capStopAll (d : Dev) : Dev := forEach (caps32.filter (capRunning d)) (fun ch d => capEnd d ch 3) d

/-- The converter that a captured sample comes from: of its own tap, of its window's port, of its segment's input port. -/
def capConv (d : Dev) (ch : Nat) : Option Nat :=
  let i := capIndex d ch
  if capKind d ch < 3 then some (4 * capKind d ch + i)
  else if capKind d ch = 3 then some (i / 8)
  else if inBranch d i < 4 then some (inBranch d i) else none
/-- The flags of a captured sample (R63 to R65, R74, R75): at a converter OVR stands at a full-scale code alone and not beside a
recovery's INV; a calibration marks every sample that derives from its converter; a DAC has no recovery. -/
def capFlags (d : Dev) (ch : Nat) (x : Sample) : Sample :=
  let cal : Bool := match capConv d ch with
    | some i => d.conv.running.any fun e => decide (e.1 = i)
    | none => false
  let full := decide (x.i = 8191 ∨ x.i = -8192)
  if capKind d ch < 3 then
    let ovr := x.ovr && full
    { x with ovr := ovr, inv := cal || (x.inv && ! ovr && decide (capKind d ch ≠ 1)) }
  else { x with inv := x.inv || cal }

/-- The bytes of captured samples (R72, R73): converter-rate sources are real. -/
def capDataBytes (d : Dev) (ch : Nat) (l : List Sample) : List Byte :=
  let l := l.map (capFlags d ch)
  if capKind d ch < 3 then l.flatMap realBytes else l.flatMap complexBytes

/-- Store the samples of a circular buffer: those of the last turn remain, and the next write's offset follows. -/
def storeRing (d : Dev) (m : Mem) (ch : Nat) (b : List Byte) : Dev × Mem :=
  let size := capSize d ch
  if size = 0 then (d, m)
  else
    let pos := b.length % size
    let m' := if b.length ≤ size then memStore m (capBase d ch) b
      else memStore (memStore m (capBase d ch + pos) ((b.drop (b.length - size)).take (size - pos))) (capBase d ch)
        (b.drop (b.length - pos))
    (modCap (wr d pgCAP (CAP.CAP_POS_POS ch) pos) ch fun c => { c with bytes := b.length }, m')

/-- A stop of a RING or STREAM channel, with the samples a RING took since its start (R382). A ONESHOT runs on. -/
def capStop (d : Dev) (m : Mem) (ch : Nat) (l : List Sample) : Dev × Mem :=
  if ¬ capRunning d ch ∨ capMode d ch = 0 then (d, m)
  else if capMode d ch = 1 then
    let r := storeRing d m ch (capDataBytes d ch l)
    (capEnd r.1 ch 3, r.2)
  else (capEnd d ch 3, m)

/-- A ONESHOT buffer is full (R382). -/
def capFull (d : Dev) (m : Mem) (ch : Nat) (l : List Sample) : Dev × Mem :=
  if ¬ capRunning d ch ∨ capMode d ch ≠ 0 then (d, m)
  else
    let b := (capDataBytes d ch l).take (capSize d ch)
    let d := modCap (wr d pgCAP (CAP.CAP_POS_POS ch) b.length) ch fun c => { c with bytes := b.length }
    (capEnd d ch 2, memStore m (capBase d ch) b)

/-- The capture channel that streams through a DMA channel. -/
def streamOf (d : Dev) (c : Nat) : Option Nat :=
  caps32.find? fun ch => capRunning d ch && decide (capMode d ch = 2) && decide (rd d pgCAP (CAP.CAP_CTRL_DMA_CH ch) = c)

/-- A completed descriptor of a channel (R377, R383): data moves, then CONS advances; an invalid one halts. `data` is
what the master's memory gave for a host-to-device descriptor. -/
def dmaComplete (d : Dev) (m : Mem) (c : Nat) (x : Desc) (data : List Byte) : Dev × Mem :=
  if ¬ dmaReady d c then (d, m)
  else
    match streamOf d c with
    | some ch =>
      if x.len ≠ 65536 ∨ x.flags % 2 = 0 ∨ ¬ x.flags < 4 then (dmaHalt d c 1, m)
      else
        match (capRt d ch).filled with
        | [] => (d, m)
        | b :: t =>
          let bytes := memLoad m (capBase d ch + b * 65536) 65536
          let d := emitD d (.memWrite x.hostAddr (byteDwords bytes))
          (dmaAdvance (modCap d ch fun k => { k with filled := t }) c (nbit x.flags 1), m)
    | none =>
      if ¬ descOk x then (dmaHalt d c 1, m)
      else if x.flags % 2 = 0 then
        (dmaAdvance d c (nbit x.flags 1), if capUsable d then memStore m x.devAddr (data.take x.len) else m)
      else
        let bytes := if capUsable d then memLoad m x.devAddr x.len else List.replicate x.len 0
        (dmaAdvance (emitD d (.memWrite x.hostAddr (byteDwords bytes))) c (nbit x.flags 1), m)

/-- The header of a stream block (Table 14.10). -/
def blockHeader (d : Dev) (ch count offs : Nat) : List Byte :=
  let k := capRt d ch
  leBytes (ch + b2n (decide (k.lost ≠ 0)) * 256) 4 ++ leBytes k.seq 4 ++ leBytes d.devLoop 4 ++ leBytes offs 4
    ++ leBytes (min 4294967295 k.lost) 4 ++ leBytes count 4 ++ leBytes 0 40

/-- A stream block fills (R383): it takes the next free block, and goes to the next posted descriptor where one is
given; with no free block its samples are discarded. -/
def streamBlock (d : Dev) (m : Mem) (ch offs : Nat) (l : List Sample) (x : Option Desc) : Dev × Mem :=
  if ¬ capRunning d ch ∨ capMode d ch ≠ 2 then (d, m)
  else
    let k := capRt d ch
    let blocks := rd d pgCAP (CAP.CAP_LEN_SIZE ch) / 16
    let c := rd d pgCAP (CAP.CAP_CTRL_DMA_CH ch)
    if blocks ≤ k.filled.length then
      let d := if k.lost = 0 then bump d pgCAP (CAP.CAP_STAT_GAPS ch) else d
      (modCap d ch fun k => { k with lost := k.lost + l.length }, m)
    else
      let b := blockHeader d ch l.length offs ++ capDataBytes d ch l
      let m := memStore m (capBase d ch + k.next * 65536) (b.take 65536)
      let d := modCap d ch fun k =>
        { k with filled := k.filled ++ [k.next], next := (k.next + 1) % blocks, seq := (k.seq + 1) % 4294967296, lost := 0,
                 bytes := (k.bytes + 65536) % 4294967296 }
      let d := wr d pgCAP (CAP.CAP_POS_POS ch) ((k.next + 1) % blocks * 65536)
      match x with
      | some x => dmaComplete d m c x []
      | none => (d, m)

/-- RETRY, SKIP and ABORT of a halted channel (R379). -/
def dmaRetry (d : Dev) (c : Nat) : Dev :=
  if rd d pgDMA (DMA.DMA_STAT_STATE c) ≠ dmaHALTED then d
  else dmaFetch (wr (wr d pgDMA (DMA.DMA_STAT_ERR c) 0) pgDMA (DMA.DMA_STAT_STATE c) dmaRUNNING) c
def dmaSkip (d : Dev) (c : Nat) : Dev :=
  if rd d pgDMA (DMA.DMA_STAT_STATE c) ≠ dmaHALTED then d
  else
    dmaAdvance (wr (wr d pgDMA (DMA.DMA_STAT_ERR c) 0) pgDMA (DMA.DMA_STAT_STATE c) dmaRUNNING) c false
def dmaAbort (d : Dev) (c : Nat) : Dev := setInflight (dmaOff c d)

end Sys2Proof.Machine
end

