-- ==== Sys2Proof/Machine/DcFeed.lean ====
section
/-!
DEFINITION. The DC feeds (R49 to R57).
-/

namespace Sys2Proof.Machine

/-- Feed states (Table 2.6). -/
def dcfOFF : Nat := 0
def dcfRAMP : Nat := 1
def dcfON : Nat := 2
def dcfRETRY : Nat := 3
def dcfLATCHED : Nat := 4

def dcfState (d : Dev) (p : Nat) : Nat := rd d (pgDCF p) DCF.DCF_STAT_STATE
def setDcf (d : Dev) (p st : Nat) : Dev := wr d (pgDCF p) DCF.DCF_STAT_STATE st

/-- Set voltage in volts (Table 2.12). -/
def dcfVolts : Nat → Nat
  | 0 => 12
  | 1 => 15
  | 2 => 24
  | _ => 30

/-- The sum over the enabled feeds of voltage times current limit, in 10 mW, with port p's fields replaced. -/
def dcfSum (d : Dev) (p en vsel ilim : Nat) : Nat :=
  (ports4.map fun q =>
    if q = p then (if en = 0 then 0 else dcfVolts vsel * ilim)
    else if rdB d (pgDCF q) DCF.DCF_CTRL_ENABLE then
      dcfVolts (rd d (pgDCF q) DCF.DCF_CTRL_VSEL) * rd d (pgDCF q) DCF.DCF_ILIM_ILIMIT else 0).foldl (· + ·) 0

/-- The 60 W bound (Table 2.5). -/
def dcfFits (d : Dev) (p en vsel ilim : Nat) : Bool := decide (dcfSum d p en vsel ilim ≤ 6000)

/-- No feed supplies its output: the supply zone is shut down, or there is no supply (R55). -/
def dcfHeld (d : Dev) : Bool := zoneShut d 6 || decide (d.supply ≠ .on)

/-- A feed enters RAMP where it is enabled, off and not held. -/
def dcfStart (p : Nat) (d : Dev) : Dev :=
  if rdB d (pgDCF p) DCF.DCF_CTRL_ENABLE ∧ dcfState d p = dcfOFF ∧ ¬ dcfHeld d then setDcf d p dcfRAMP else d
def dcfStartAll (d : Dev) : Dev := forEach ports4 dcfStart d

/-- A feed is switched off by power fail or by its zone; RETRY and LATCHED stay (R55). -/
def dcfCut (p : Nat) (d : Dev) : Dev := if dcfState d p = dcfLATCHED then d else setDcf d p dcfOFF
def dcfCutAll (d : Dev) : Dev := forEach ports4 dcfCut d

/-- A fault event's counts and records (R52). Cause 1 is over-current, 2 is arc. -/
def dcfRecord (d : Dev) (p cause : Nat) : Dev :=
  let d := wr d (pgDCF p) DCF.DCF_STAT_LAST_CAUSE cause
  let d := bump d (pgDCF p) (if cause = 1 then DCF.DCF_COUNT_TRIP_CNT else DCF.DCF_COUNT_ARC_CNT)
  raise (corrected d (44 + p) false) (pgDCF p) 0

/-- An over-current trip or an arc in RAMP or ON (R52). -/
def dcfFault (d : Dev) (p cause : Nat) : Dev :=
  if dcfState d p ≠ dcfRAMP ∧ dcfState d p ≠ dcfON then d
  else
    let d := dcfRecord d p cause
    if rd d (pgDCF p) DCF.DCF_STAT_RETRY < 3 then setDcf d p dcfRETRY
    else raise (setDcf d p dcfLATCHED) (pgDCF p) 1

/-- A write of ENABLE, alone or in the cycle of a fault event (R50, R54). -/
def dcfEnable (d : Dev) (p : Nat) (en : Bool) (fault : Nat) : Dev :=
  let st := dcfState d p
  if en && ! dcfFits d p 1 (rd d (pgDCF p) DCF.DCF_CTRL_VSEL) (rd d (pgDCF p) DCF.DCF_ILIM_ILIMIT) then
    let d := setError d (pgDCF p) 0x40
    if fault = 0 then d else dcfFault d p fault
  else
    let d := wrB d (pgDCF p) DCF.DCF_CTRL_ENABLE en
    if en then dcfStart p (if fault = 0 then d else dcfFault d p fault)
    else
      let d := if fault ≠ 0 ∧ (st = dcfRAMP ∨ st = dcfON) then dcfRecord d p fault else d
      dcfCut p d

/-- A write of 1 to RELEASE (R53): no effect outside LATCHED. -/
def dcfRelease (d : Dev) (p : Nat) : Dev :=
  if dcfState d p ≠ dcfLATCHED then d
  else dcfStart p (setDcf (wr d (pgDCF p) DCF.DCF_STAT_RETRY 0) p dcfOFF)

/-- The output reaches 95 % of the set voltage (Table 2.6); the measured output goes to DCF_MEAS in 10 mV and mA. -/
def dcfRampDone (d : Dev) (p mv10 ma : Nat) : Dev :=
  if dcfState d p ≠ dcfRAMP ∨ mv10 * 100 < dcfVolts (rd d (pgDCF p) DCF.DCF_CTRL_VSEL) * 100 * 95 then d
  else setDcf (wr (wr d (pgDCF p) DCF.DCF_MEAS_VOLTAGE mv10) (pgDCF p) DCF.DCF_MEAS_CURRENT ma) p dcfON

/-- The retry delay expires (R52). -/
def dcfRetryNow (d : Dev) (p : Nat) : Dev :=
  if dcfState d p ≠ dcfRETRY ∨ dcfHeld d then d
  else setDcf (wr d (pgDCF p) DCF.DCF_STAT_RETRY (rd d (pgDCF p) DCF.DCF_STAT_RETRY + 1)) p dcfRAMP

/-- 600 s in ON without a fault event (R52). -/
def dcfRetryReset (d : Dev) (p : Nat) : Dev :=
  if dcfState d p ≠ dcfON then d else wr d (pgDCF p) DCF.DCF_STAT_RETRY 0

/-! What the Granary keeps of a feed (R56) -/

def feedRt (d : Dev) (p : Nat) : Feed := tget (fun _ => feed0) d.feeds p
def setFeed (d : Dev) (p : Nat) (f : Feed) : Dev := { d with feeds := tset (fun _ => feed0) d.feeds p f }
def feedRegs : List Nat := [0x40, 0x44, 0x48]
def feedWords (d : Dev) (p : Nat) : List Word := feedRegs.map (reg d (pgDCF p))
def factoryWords (d : Dev) (p : Nat) : List Word := feedRegs.map fun o => regReset d.part (rkey (pgDCF p) o)
def storedWords (d : Dev) (p : Nat) : List Word := ((feedRt d p).stored).getD (factoryWords d p)
/-- The feed's fields are loaded. -/
def feedLoad (d : Dev) (p : Nat) (l : List Word) : Dev :=
  (feedRegs.zip l).foldl (fun d e =>
    let k := BitVec.ofNat 32 (regGran (rkey (pgDCF p) e.1))
    setReg d (pgDCF p) e.1 ((reg d (pgDCF p) e.1 &&& ~~~ k) ||| (e.2 &&& k))) d

/-- Loop periods of 100 ms. -/
def storeTime : Nat := 3200
/-- A latch: a value that the Granary does not hold yet is stored once it has waited 100 ms. The rule lets the engine store it
at any time within them (log entry 68). -/
def feedLatch (p : Nat) (d : Dev) : Dev :=
  if feedWords d p = storedWords d p then
    if (feedRt d p).since = none then d else setFeed d p { feedRt d p with since := none }
  else
    match (feedRt d p).since with
    | none => setFeed d p { feedRt d p with since := some d.devLoop }
    | some t => if t + storeTime ≤ d.devLoop + 1 then setFeed d p ⟨some (feedWords d p), none⟩ else d
/-- Power fails: a value that has not been stored is lost. Whether one younger than 100 ms has been stored is open. -/
def feedLose (p : Nat) (d : Dev) : Dev :=
  if feedWords d p = storedWords d p then d
  else
    let kept := decide (Config.freeValue d.free % 2 = 1)
    let d := { d with free := d.free + 1 }
    if kept then setFeed d p ⟨some (feedWords d p), none⟩
    else setFeed (feedLoad d p (storedWords d p)) p { feedRt d p with since := none }
/-- The stored values cannot be read: the factory values, OFF, and a Tally record, whose code Table 17.3 does not give. -/
def feedUnread (d : Dev) (p : Nat) : Dev :=
  let d := setFeed (feedLoad (setDcf d p dcfOFF) p (factoryWords d p)) p feed0
  tally { d with free := d.free + 1 } (Config.freeValue d.free % 4096) (pgDCF p) 0

/-- The open-load check (R57): the current in mA has kept its side of the threshold for 1 s. OPEN clears whatever the feed's
state and also with OPEN_TH at 0, then at 10 mA: the rule names neither case (DESIGN CHOICE, log entry 68). -/
def dcfOpen (d : Dev) (p ma : Nat) : Dev :=
  let th := rd d (pgDCF p) DCF.DCF_OPEN_OPEN_TH
  if dcfState d p ≠ dcfON ∨ th = 0 ∨ 10 * th ≤ ma ∨ rdB d (pgDCF p) DCF.DCF_STAT_OPEN then d
  else raiseTally (wr (wr d (pgDCF p) DCF.DCF_MEAS_CURRENT ma) (pgDCF p) DCF.DCF_STAT_OPEN 1) (pgDCF p) 2
def dcfOpenClear (d : Dev) (p ma : Nat) : Dev :=
  let th := rd d (pgDCF p) DCF.DCF_OPEN_OPEN_TH
  if ma < 10 * th + 10 ∨ ¬ rdB d (pgDCF p) DCF.DCF_STAT_OPEN then d
  else raise (wr (wr d (pgDCF p) DCF.DCF_MEAS_CURRENT ma) (pgDCF p) DCF.DCF_STAT_OPEN 0) (pgDCF p) 2

end Sys2Proof.Machine
end

