-- ==== Sys2Proof/Machine/Conv.lean ====
section
/-!
DEFINITION. The converters: calibration, saves, over-range, clips and the spur fault (R62 to R78), and the DEGRADED
status they give a segment (R90).
-/

namespace Sys2Proof.Machine

/-- Converter i: 0 to 3 ADC, 4 to 7 DAC, 8 to 11 OBS. -/
def convs12 : List Nat := List.range 12
/-- Calibration states (Table 3.8). -/
def calUNCAL : Nat := 0
def calRUNNING : Nat := 1
def calDONE : Nat := 2
def calFAILED : Nat := 3

def calState (d : Dev) (i : Nat) : Nat := rd d (pgCONV i) CONV.CAL_STAT_STATE
def modConv (d : Dev) (f : Conv → Conv) : Dev := { d with conv := f d.conv }

/-- DEGRADED of a segment (R90): host software's bit, or an uncalibrated, failed or spurious input ADC. An inactive segment
has no input port, so only host software's bit counts for it (DESIGN CHOICE, log entry 68). -/
def degradedOf (d : Dev) (n : Nat) : Bool :=
  let b := inBranch d n
  rdB d (pgSEG n) SEG.DCB_CTRL_DEGRADED
    || (decide (d.act.contains n = true ∧ b < 4) && (decide (calState d b = calUNCAL) || decide (calState d b = calFAILED) || d.conv.spur.contains b))

/-- SEG_STAT.DEGRADED follows; a change is INT_RAW bit 5 with a PATH_EVENT item in q12 (Table 4.16, Table 14.6). -/
def refreshDegraded (n : Nat) (d : Dev) : Dev :=
  let v := degradedOf d n
  if rdB d (pgSEG n) SEG.SEG_STAT_DEGRADED = v then d
  else putItem (raise (wrB d (pgSEG n) SEG.SEG_STAT_DEGRADED v) (pgSEG n) 5) (qSeg n 12) 0x60 1 [(5, 16), (b2n v, 16)]
def refreshAllDegraded (d : Dev) : Dev := forEach d.act refreshDegraded d

/-- The corrections in force on a converter. -/
def corrOf (d : Dev) (i : Nat) : List SubCorr := tget (fun _ => corr0) d.conv.corr i
def setCorr (d : Dev) (i : Nat) (l : List SubCorr) : Dev :=
  modConv d fun c => { c with corr := tset (fun _ => corr0) c.corr i l }

/-- The sets a save writes: those of the converters that have corrections, from a calibration or from the store. -/
def savedSets (d : Dev) : Table (Option (List SubCorr)) :=
  convs12.foldl (fun t i =>
    tset (fun _ => none) t i (if rd d (pgCONV i) CONV.CAL_STAT_SOURCE = 0 then none else some (corrOf d i))) []

/-- The newest valid set for a converter in the store (R67). -/
def storedSet (c : Conv) (i : Nat) : Option (List SubCorr) :=
  let a := if c.validA then tget (fun _ => none) c.setsA i else none
  let b := if c.validB then tget (fun _ => none) c.setsB i else none
  if c.newer then b.or a else a.or b

/-- The stored corrections are loaded (R67). -/
def loadCorr (temp : Int) (i : Nat) (d : Dev) : Dev :=
  match storedSet d.conv i with
  | none => d
  | some l =>
    let d := wr (wr (setCorr d i l) (pgCONV i) CONV.CAL_STAT_SOURCE 2) (pgCONV i) CONV.CAL_STAT_STATE calDONE
    wrS d (pgCONV i) CONV.CAL_QUAL_CAL_TEMP temp

/-- The save of the corrections begins (R69). A save requested during a save is one with it: no second save follows (DESIGN
CHOICE, log entry 68). -/
def saveBegin (d : Dev) : Dev :=
  if rdB d pgCGLB CGLB.GLB_STAT_SAVE_BUSY then modConv d fun c => { c with saveWait := false }
  else
    wr (modConv d fun c => { c with saveWait := false, saving := savedSets d }) pgCGLB CGLB.GLB_STAT_SAVE_BUSY 1

/-- A request for a save: it waits while a foreground calibration runs (R70). -/
def saveRequest (d : Dev) : Dev :=
  if d.conv.running = [] then saveBegin d else modConv d fun c => { c with saveWait := true }

/-- Foreground calibration of converter i begins (R65). -/
def calBegin (i : Nat) (d : Dev) : Dev :=
  if d.conv.running.any fun e => decide (e.1 = i) then d
  else
    let was := calState d i
    wr (modConv d fun c => { c with running := c.running ++ [(i, was)] }) (pgCONV i) CONV.CAL_STAT_STATE calRUNNING

/-- CAL_START and CAL_ALL: outside TEST no effect but ERROR (R65). -/
def calStart (d : Dev) (i : Nat) : Dev :=
  if d.mode = .test then txGoAll (refreshAllDegraded (calBegin i d)) else setError d (pgCONV i) 0x44
def calAllBegin (d : Dev) : Dev :=
  txGoAll (refreshAllDegraded
    (modConv (forEach convs12 calBegin (wr d pgCGLB CGLB.GLB_STAT_CAL_FAIL 0)) fun c => { c with all := true }))
def calAll (d : Dev) : Dev := if d.mode = .test then calAllBegin d else setError d pgCGLB 0x40

/-- A converter passes (R66): worst spur −70 dBFS or lower, gains within ±0.5 dB, offsets within ±64 codes. -/
def calPasses (spur gain offs : Int) : Bool :=
  decide (spur ≤ -1400) && decide (-10 ≤ gain ∧ gain ≤ 10) && decide (-64 ≤ offs ∧ offs ≤ 64)

/-- CAL_FAIL bit of a converter. -/
def setCalFail (d : Dev) (i : Nat) (b : Bool) : Dev :=
  wr d pgCGLB CGLB.GLB_STAT_CAL_FAIL (nbitPut (rd d pgCGLB CGLB.GLB_STAT_CAL_FAIL) i b)

/-- A foreground calibration ends (R66, R69, R70): worst spur, largest gain and offset departures, baseplate temperature, and
the corrections it found, which a failed one does not put in force. BG_CONV keeps its value and the count of quiet updates
starts again (DESIGN CHOICE, log entry 68). Once none runs any more, the corrections of all are saved if one of those that
ran together passed, in the CONVERTER_CAL step only if all did. -/
def calEnd (d : Dev) (i : Nat) (spur gain offs temp : Int) (corr : List SubCorr) : Dev :=
  if ¬ d.conv.running.any fun e => decide (e.1 = i) then d
  else
    let ok := calPasses spur gain offs
    let d := modConv d fun c => { c with running := c.running.filter fun e => decide (e.1 ≠ i),
                                         quiet := tset (fun _ => 0) c.quiet i 0, passed := c.passed || ok }
    let d := txGoAll (if ok then setCorr d i corr else d)
    let d := wr d (pgCONV i) CONV.CAL_STAT_STATE (if ok then calDONE else calFAILED)
    let d := if ok then wr d (pgCONV i) CONV.CAL_STAT_SOURCE 1 else d
    let d := wrS (wrS d (pgCONV i) CONV.CAL_QUAL_WORST_SPUR spur) (pgCONV i) CONV.CAL_QUAL_CAL_TEMP temp
    let d := raise (setCalFail d i (! ok)) (pgCONV i) (if ok then 0 else 1)
    let d := refreshAllDegraded d
    if d.conv.running ≠ [] then d
    else
      let good := d.conv.passed && (decide (d.mode ≠ .start) || decide (rd d pgCGLB CGLB.GLB_STAT_CAL_FAIL = 0))
      let d := modConv d fun c => { c with all := false, passed := false }
      if good ∨ d.conv.saveWait then saveBegin d else d

/-- A save completes or fails (R69): it overwrites the older copy; a failed one leaves the newer copy valid. -/
def saveEnd (d : Dev) (ok : Bool) : Dev :=
  if ¬ rdB d pgCGLB CGLB.GLB_STAT_SAVE_BUSY then d
  else
    let d := wrB (wr d pgCGLB CGLB.GLB_STAT_SAVE_BUSY 0) pgCGLB CGLB.GLB_STAT_SAVE_OK ok
    -- `newer` false: copy A is the newer, so copy B is overwritten.
    let d := modConv d fun c =>
      if c.newer then { c with validA := ok, newer := c.newer && ! ok, setsA := c.saving, saving := [] }
      else { c with validB := ok, newer := ok, setsB := c.saving, saving := [] }
    if ok then raise (wr d pgCGLB CGLB.SAVE_AGE_SECONDS 0) pgCGLB 0 else raise d pgCGLB 1

/-- The corrections are saved after 86,400 s converged on every converter (R69). -/
def autoSave (d : Dev) : Dev :=
  if convs12.all fun i => rdB d (pgCONV i) CONV.CAL_STAT_BG_CONV then saveRequest d else d

def setBgConv (d : Dev) (i : Nat) (b : Bool) : Dev :=
  if rdB d (pgCONV i) CONV.CAL_STAT_BG_CONV = b then d else raise (wrB d (pgCONV i) CONV.CAL_STAT_BG_CONV b) (pgCONV i) 3

/-- A value moves towards another by at most b. -/
def moveBy (b x goal : Int) : Int := x + max (-b) (min b (goal - x))
/-- One update of a sub-converter towards what was estimated: at most 0.005 dB, 20 fs and 1 code (R68). -/
def bgStep (x goal : SubCorr) : SubCorr :=
  ⟨moveBy 5 x.gain goal.gain, moveBy 20 x.skew goal.skew, moveBy 1 x.offs goal.offs, goal.band⟩
/-- Some gain moved by more than 0.001 dB. -/
def gainMoved (l m : List SubCorr) : Bool := (l.zip m).any fun e => decide (1 < (e.2.gain - e.1.gain).natAbs)

/-- A background interval ends (R68): discarded with an OVR sample or below −45 dBFS, else an update towards the estimate. -/
def bgUpdate (d : Dev) (i : Nat) (ovr : Bool) (rms : Int) (est : List SubCorr) : Dev :=
  if ¬ rdB d (pgCONV i) CONV.CONV_CTRL_BG_EN ∨ calState d i = calRUNNING then d
  else if ovr ∨ rms < -900 then wr d (pgCONV i) CONV.CAL_STAT_BG_HELD 1
  else
    let new := List.zipWith bgStep (corrOf d i) est
    let moved := gainMoved (corrOf d i) new
    let d := setCorr d i new
    let run := if moved then 0 else tget (fun _ => 0) d.conv.quiet i + 1
    let d := modConv d fun c => { c with quiet := tset (fun _ => 0) c.quiet i (min 8 run) }
    let d := incr (wr d (pgCONV i) CONV.CAL_STAT_BG_HELD 0) (pgCONV i) CONV.CAL_STAT_UPDATES
    if moved then setBgConv d i false else if 8 ≤ run then setBgConv d i true else d

/-- A converter's spur has stayed above −65 dBFS for 10 s (R71). -/
def spurFault (d : Dev) (i : Nat) (spur : Int) : Dev :=
  if spur ≤ -1300 ∨ d.conv.spur.contains i then d
  else
    let d := wrS (modConv d fun c => { c with spur := c.spur ++ [i] }) (pgCONV i) CONV.CAL_QUAL_WORST_SPUR spur
    refreshAllDegraded (raise (corrected d (32 + i) true) (pgCONV i) 4)

/-- The spur's cause ends (R405). -/
def spurEnd (d : Dev) (i : Nat) : Dev := refreshAllDegraded (modConv d fun c => { c with spur := c.spur.filter (· ≠ i) })

/-- An over-range or clip event of a converter (R63, R64). -/
def overrange (d : Dev) (i : Nat) : Dev := raise (bump d (pgCONV i) CONV.OVR_CNT_EVENTS) (pgCONV i) 2

/-- Samples that recovery takes at 9.8304 GS/s: 4 ns, rounded up (R63). -/
def recoverySamples : Nat := 40

/-- More than OVL_EVENTS over-range events on donor ADC p within 10 ms raise DONOR_OVERLOAD on every downlink segment of the port
(R249, cause (a)): the last 320 loop periods count. -/
def overload (d : Dev) (p : Nat) : Dev :=
  let l := (tget (fun _ => []) d.np.ovl p).filter fun t => decide (d.devLoop < t + 320)
  let l := l ++ [d.devLoop]
  let d := { d with np := { d.np with ovl := tset (fun _ => []) d.np.ovl p l } }
  if rd d pgNP NP.NP_OVL_OVL_EVENTS < l.length then
    forEach (d.act.filter fun n => decide (inBranch d n = p) && ! isUplink d n) (fun n d =>
      npRaise { d with np := { d.np with ovlLast := tset (fun _ => 0) d.np.ovlLast n d.devLoop } } 6 n) d
  else d

/-- An over-range event of an ADC (0 to 3) or OBS (8 to 11) converter. -/
def adcOverrange (d : Dev) (i : Nat) : Dev :=
  let d := overrange d i
  if i < 2 then overload d i else d

end Sys2Proof.Machine
end

