-- ==== Sys2Proof/Machine/Modes.lean ====
section
/-!
DEFINITION. Mode changes (R4, R5), the Weevil clusters (R28, R29, R403), and the fault collector's reactions (R404 to
R413).
-/

namespace Sys2Proof.Machine

/-- A mode change with its row of Table 0.5: MODE_STAT, MODE_TIME from 0, INT_RAW bit 0, and what the mode permits of
the transmit chains and of protection. -/
def setMode (d : Dev) (m : Mode) (row : Nat) : Dev :=
  let d := { d with prev := d.mode, mode := m, modeCause := row }
  npWake (txGoAll (raise (wr d pgMODE MODE.MODE_TIME_SECONDS 0) pgMODE 0))

/-- No protection action above TRIM remains. -/
def noneAboveTrim (d : Dev) : Bool :=
  ! npSilent d && decide (portOffMask d = 0) && d.act.all (fun n => ! isActive d n || decide (segLevel d n ≤ 1))
    && ports4.all fun p => decide (portLevel d p ≤ 1)

/-- RECOVERY returns to SERVICE (Table 0.5, row 5). -/
def checkService (d : Dev) : Dev :=
  if d.mode = .recovery ∧ noneAboveTrim d = true
      ∧ (d.act.all fun n => ! isActive d n || rdB d (pgSEG n) SEG.ISO_STAT_VALID) = true then setMode d .service 5 else d

/-- An isolation, or a restart after RF_SILENT, in SERVICE (Table 0.5, row 4). -/
def toRecovery (d : Dev) : Dev := if d.mode = .service then setMode d .recovery 4 else d

/-! Weevil clusters -/

/-- The workload code of a cluster (Table 1.6, R403). -/
def workOf (k : Nat) : Nat :=
  if k < 2 then 0 else if k < 14 then 1 else if k < 18 then 2 else if k < 22 then 3 else if k < 26 then 4
  else if k < 30 then 5 else if k = 30 then 6 else 7

def isolated (d : Dev) (k : Nat) : Bool := rdB d (pgWVL k) WVL.WVL_STAT_ISOLATED
def substFor (d : Dev) : Option Nat :=
  if rdB d (pgWVL 31) WVL.WVL_STAT_SUBST ∧ ¬ isolated d 31 then some (rd d (pgWVL 31) WVL.WVL_SUBST_FOR) else none

/-- The clusters of a workload that remain, cluster 31 aside; from the WEEVIL step on, one that lost its programs to a soft
reset or an isolation carries none until the next start (R408). -/
def remaining (d : Dev) (w : Nat) : List Nat :=
  (List.range 31).filter fun k => decide (workOf k = w) && ! isolated d k
    && (decide (d.boot.passed < 5) || rdB d (pgWVL k) WVL.WVL_STAT_LOADED)

/-- A cluster of the workload remains (R29). -/
def workAlive (d : Dev) (w : Nat) : Bool :=
  decide (remaining d w ≠ []) || (match substFor d with | some k => decide (workOf k = w) | none => false)

/-- NO_ENGINE and UNAVAILABLE follow the DPD and emission workloads (R288). -/
def checkEngine (p : Nat) (d : Dev) : Dev :=
  let ne := ! workAlive d 5
  let un := ! workAlive d 4
  let d := if rdB d (pgTX p) TX.DPD_STAT_NO_ENGINE = ne then d
    else raiseTally (wrB d (pgTX p) TX.DPD_STAT_NO_ENGINE ne) (pgTX p) 5
  if rdB d (pgEMK p) EMK.EM_STAT_UNAVAILABLE = un then d
  else
    let d := raiseTally (wrB d (pgEMK p) EMK.EM_STAT_UNAVAILABLE un) (pgEMK p) 5
    if un then npEnd (modChain d p fun c => { c with emission := false, sweeping := false }) 5 p else d
/-- MODEM follows the Cricket modem workload (R242). -/
def checkModem (d : Dev) : Dev :=
  let m := workAlive d 2
  if rdB d pgLNK LNK.LNK_STAT_MODEM = m then d
  else linkTidy (raiseTally (wrB d pgLNK LNK.LNK_STAT_MODEM m) pgLNK 7)
def checkEngines (d : Dev) : Dev := checkModem (forEach ports4 checkEngine d)

/-- A cluster starts to carry the workload of cluster k, alone or as a share. -/
def carry (d : Dev) (j : Nat) (share : Bool) (k : Nat) : Dev :=
  let d := wr d (pgWVL j) (if share then WVL.WVL_STAT_SHARED else WVL.WVL_STAT_SUBST) 1
  let d := if share then d else wr d (pgWVL j) WVL.WVL_SUBST_FOR k
  raiseTally d (pgWVL j) 1

/-- Within 100 ms of the isolation of cluster k its workload is carried on (R29): by cluster 31 once, else shared
among the remaining clusters of the workload. -/
def substitute (d : Dev) (k : Nat) : Dev :=
  if ¬ isolated d k then d
  else if k = 31 then
    if rdB d (pgWVL 31) WVL.WVL_STAT_SUBST then
      let j := rd d (pgWVL 31) WVL.WVL_SUBST_FOR
      checkEngines (forEach (remaining d (workOf j)) (fun i d => carry d i true j)
        (wr d (pgWVL 31) WVL.WVL_STAT_SUBST 0))
    else d
  else if ¬ d.boot.spent ∧ ¬ isolated d 31 then
    checkEngines (carry { d with boot := { d.boot with spent := true } } 31 false k)
  else if substFor d = some k then d
  else checkEngines (forEach (remaining d (workOf k)) (fun i d => carry d i true k) d)

/-! Reactions -/

/-- A page's ENABLE clears, and READY with it (R406). -/
def isolatePage (pg : Nat) (d : Dev) : Dev := modHdr d pg fun h => { h with enable := false }
def tallyPages : List Nat := [pgTAL, pgSNAP, pgTRD, pgGRN]
def trustPages : List Nat := [pgBOOT, pgIMG, pgTRUST]

/-- A DDR-5 region or the agent is out of use. -/
def takeAway (d : Dev) (s : Nat) : Dev :=
  if d.rep.flt.away.contains s then d else { d with rep := modFlt d.rep fun f => { f with away := f.away ++ [s] } }

/-- The block of a CONTAINED source is isolated already. -/
def isIsolated (d : Dev) (s : Nat) : Bool :=
  if 96 ≤ s ∧ s < 128 then isolated d (s - 96)
  else if s = 224 ∨ s = 225 then ! (hdr d pgTAL).enable
  else if s = 227 then ! (hdr d pgTRUST).enable
  else if s = 209 then d.rep.flt.away.contains 136
  else d.rep.flt.away.contains s

/-- The mark in `away` of an Ovminte runtime that has not reloaded yet: MODE_CMD is refused meanwhile. -/
def reloading : Nat := 1135

/-- The Fyhan agent is held in reset (R363, Table 16.2). -/
def isolateAgent (d : Dev) : Dev := agentReset (takeAway d 136)

/-- No flush runs while the Tally pages are isolated (R435): the records of one in progress stay staged. -/
def tallyHalt (d : Dev) : Dev :=
  { d with rep := modTally d.rep fun t =>
      { t with flushing := false, staged := t.staged.map fun s => { s with taken := false } } }

/-- The cluster that carries a segment's isolation estimates: its own, cluster 31 in its place, or one of those that share the
workload, whichever (R29). -/
def carrierOf (d : Dev) (n : Nat) : Option Nat :=
  let k := Config.clusterOf n % 12 + 2
  if ¬ isolated d k then some k
  else if substFor d = some k then some 31
  else
    let l := remaining d 1
    l[Config.clusterOf (n + 1024) % max 1 l.length]?

/-- Isolate the block of a CONTAINED source (Table 16.2). -/
def isolateBlock (d : Dev) (s : Nat) : Dev :=
  if 96 ≤ s ∧ s < 128 then
    let k := s - 96
    let hit := d.act.filter fun n => decide (carrierOf d n = some k)
    let d := raise (wr (isolatePage (pgWVL k) d) (pgWVL k) WVL.WVL_STAT_ISOLATED 1) (pgWVL k) 0
    let d := forEach hit (fun n d => isoDrop d n) d
    -- With no cluster 31 left to take the workload over, a workload without a cluster is lost at once.
    if d.boot.spent ∨ isolated d 31 = true then checkEngines d else d
  else if s = 131 then capStopAll (takeAway d 131)
  else if s = 136 ∨ s = 209 then isolateAgent d
  else if s = 224 ∨ s = 225 then tallyHalt (forEach tallyPages isolatePage d)
  else if s = 227 then
    let d := forEach trustPages isolatePage d
    { d with trust := { d.trust with held := none } }
  else if s = 135 then takeAway (takeAway d 135) reloading
  else takeAway d s

/-- Hardware RF silence (R406): every PA gate to pinch-off, every downstream container zeroed with SILENT set. -/
def silence (d : Dev) : Dev :=
  if d.rep.flt.silent then d
  else
    let d := { d with rep := modFlt d.rep fun f => { f with silent := true } }
    let d := forEach ports4 (fun k d => emitD d (.containers k true [])) d
    txGoAll (forEach d.act (fun n d => outputDropped d n) d)

/-- The class reaction of an event (R406). -/
def react (d : Dev) (s : Nat) : Dev :=
  if srcClass s = 2 then silence d
  else if srcClass s = 1 then (if isIsolated d s then d else toRecovery (isolateBlock d s))
  else d

/-- Events of one cycle in the order of R410: class, highest first, then source, lowest first. -/
def faultBefore (a b : Nat × Bool × Bool) : Bool :=
  decide (srcClass b.1 < srcClass a.1) || (decide (srcClass a.1 = srcClass b.1) && decide (a.1 ≤ b.1))
def faultInsert (a : Nat × Bool × Bool) : List (Nat × Bool × Bool) → List (Nat × Bool × Bool)
  | [] => [a]
  | b :: t => if faultBefore a b then a :: b :: t else b :: faultInsert a t
def faultSort (l : List (Nat × Bool × Bool)) : List (Nat × Bool × Bool) := l.foldr faultInsert []

/-- What a real event of some sources shows on its own page: a lost lock, a worn Granary, an uncorrectable read. -/
def faultShown (d : Dev) (s : Nat) : Dev :=
  if s < 5 then raise (bump (wr d pgCLK ⟨0x40, s, 1⟩ 0) pgCLK GCLK.CLK_CNT_UNLOCKS) pgCLK 0
  else if s = 225 then bump d pgGRN GRN.GRN_CNT_UE_READS
  else if s = 226 then
    let th := rd d pgGRN GRN.GRN_WEAR_TH
    raise { wr d pgGRN GRN.GRN_STAT_WEAR_LEFT (if th = 0 then 0 else Config.freeValue d.free % th) with free := d.free + 1 }
      pgGRN 0
  else d

/-- One registered event: shown, recorded, reacted to (R407, R412, R413). -/
def faultOne (cycle : Nat) (d : Dev) (e : Nat × Bool × Bool) : Dev :=
  let s := e.1
  if srcInfo s = none then d
  else
    let reacts := e.2.1 || rdB d pgFLT FLT.FLT_CFG_FORCE_REACT
    let d := if e.2.1 then faultShown d s else d
    let defer := (decide (s = 224) || decide (s = 225)) && (tallyOut d.rep || reacts)
    let d := { d with rep := recordFault d d.rep s e.2.1 e.2.2 cycle defer }
    if reacts then react d s else d

/-- Events registered in one collector cycle. -/
def faultEvents (d : Dev) (cycle : Nat) (l : List (Nat × Bool × Bool)) : Dev := (faultSort l).foldl (faultOne cycle) d

/-- The forced events of a write, and the real events of the same cycle (R411, R413). -/
def joinEvents (forced real : List Nat) : List (Nat × Bool × Bool) :=
  forced.map (fun s => (s, real.contains s, true)) ++ (real.filter fun s => ! forced.contains s).map fun s => (s, true, false)

/-- A persistent cause ends (R405). -/
def causeEnd (d : Dev) (s : Nat) : Dev :=
  let d := endCause d s
  if s < 5 then raise (wr d pgCLK ⟨0x40, s, 1⟩ 1) pgCLK 0
  else if 32 ≤ s ∧ s < 44 then spurEnd d (s - 32)
  else d

/-- A region or the agent returns to use with its sticky bit clear (R408). -/
def giveBack (d : Dev) (s : Nat) : Dev :=
  if s = 136 ∨ s = 209 then
    if d.rep.flt.sticky.getLsbD 136 ∨ d.rep.flt.sticky.getLsbD 209 then d
    else { d with rep := modFlt d.rep fun f => { f with away := f.away.filter (· ≠ 136) } }
  else { d with rep := modFlt d.rep fun f => { f with away := f.away.filter (· ≠ s) } }

/-- Hardware silence ends when no FATAL source is sticky (R408). -/
def unsilence (d : Dev) : Dev :=
  if d.rep.flt.silent ∧ ¬ stickyOf d.rep 2 then
    txGoAll (raise { d with rep := modFlt d.rep fun f => { f with silent := false } } pgFLT 5)
  else d

/-- Clear one sticky bit (R408): a LIVE source refuses. -/
def stickyOne (g : Nat) (s : Nat) (d : Dev) : Dev :=
  if d.rep.flt.live.getLsbD s then setError d pgFLT (0x60 + 4 * g)
  else
    giveBack { d with rep := modFlt d.rep fun f => { f with sticky := f.sticky &&& ~~~ (1#256 <<< s) } } s

/-- A write of ones to FLT_STICKY[g] (R408). -/
def stickyClear (d : Dev) (g bits : Nat) : Dev :=
  let l := ((List.range 32).filter (nbit bits)).map fun b => 32 * g + b
  unsilence (forEach (l.filter fun s => d.rep.flt.sticky.getLsbD s) (stickyOne g) d)

/-- A write of 1 to FLT_FIRST.VALID (R409); an event in the same cycle fills the latch afresh (R12). -/
def firstClear (d : Dev) (cycle : Nat) (same : List Nat) : Dev :=
  let d := { d with rep := modFlt d.rep fun f =>
    { f with first := { f.first with valid := false, overflow := false, ovfCnt := 0 } } }
  faultEvents d cycle (joinEvents [] same)

/-- FAULT_FORCE of a page (R411): applied in TEST, and only to assigned bits. -/
def forceSources (page bits : Nat) : List Nat :=
  (List.range 256).filter fun s =>
    match srcInfo s with
    | some (_, p, b) => decide (p = page) && nbit bits b
    | none => false
def forceAssigned (page : Nat) : Nat :=
  (List.range 256).foldl (fun m s =>
    match srcInfo s with
    | some (_, p, b) => if p = page then m ||| 2 ^ b else m
    | none => m) 0
def faultForce (d : Dev) (page bits cycle : Nat) (real : List Nat) : Dev :=
  if d.mode ≠ .test ∨ bits &&& forceAssigned page ≠ bits then
    faultEvents (setError d page 0x1C) cycle (joinEvents [] real)
  else faultEvents d cycle (joinEvents (forceSources page bits) real)

/-- The Ovminte runtime has reloaded from the running slot (Table 16.2, source 135). -/
def runtimeReload (d : Dev) : Dev :=
  { d with rep := modFlt d.rep fun f => { f with away := f.away.filter (· ≠ reloading) } }

end Sys2Proof.Machine
end

