-- ==== Sys2Proof/Machine/Density.lean ====
section
/-!
DEFINITION. The level of the probe and of frames on each output branch (R189 to R193, R221, R269).
-/

namespace Sys2Proof.Machine

/-- Noise figure and transmit noise of a branch (R189): calibrated, or reported by the head. -/
def branchNF (d : Dev) (b : Nat) : Int :=
  if b < 4 then rdS d pgPRB (PRB.TXN_NF b) else s16 (headWord d b 1 / 65536)
def branchTXN (d : Dev) (b : Nat) : Int :=
  if b < 4 then rdS d pgPRB (PRB.TXN b) else s16 (headWord d b 1)

/-- N_in: −174 dBm/Hz plus the noise figure. -/
def noiseIn (d : Dev) (n : Nat) : Int := -3480 + branchNF d (inBranch d n)

/-- The probe is off (R190). -/
def probeOff (d : Dev) (n : Nat) : Bool := decide (d.mode = .test) && rdB d (pgSEG n) SEG.PRB_CFG_OFF

/-- The survey level is in force (R193). -/
def surveyLevel (d : Dev) (n : Nat) : Bool := decide (d.boot.phase = .survey) && isActive d n

/-- The quieting drop lowers the probe (R269). -/
def quietDrop (d : Dev) (n : Nat) : Int :=
  if d.np.idle.contains n then
    max 0 ((rdU d (pgNPS n) NPS.NPS_QCFG_IDLE_DROP : Int) - rd d (pgSEG n) SEG.PRB_LEVEL_REL + 120) else 0

/-- Rated composite output of a branch (Table 2.1, Table 11.5), 6 dB lower on a port with an untested position (R44). -/
def rated (p : Nat) : Int := if p < 2 then 660 else 860
def ratedNow (d : Dev) (b : Nat) : Int :=
  if b < 4 then rated b - (if rd d (pgPORT b) PORT.BAND_STAT_UNTESTED = 0 then 0 else 120)
  else s16 (headWord d b 2 / 65536)

/-- The survey density before any lowering (R193). -/
def surveyDens (d : Dev) (n : Nat) : Int :=
  noiseIn d n + rd d (pgLOOP n) LOOP.GAIN_LIM_CFG_MAX - rd d (pgSEG n) SEG.PRB_LEVEL_REL + rd d pgPRB PRB.SURVEY_CFG_BOOST

/-- By how much the probe power on a branch would pass its bound, 20 dB below the rated output (R193): a probe's power is its
density over its chip rate, 960,000 × 2^RATE chips per second, as with no mask. -/
def surveyOver (d : Dev) (b : Nat) : Int :=
  let l := (d.act.filter fun n => hasOut d n b).map fun n =>
    (10 * surveyDens d n, 960000 * 2 ^ rd d (pgSEG n) SEG.PATH_CFG_RATE)
  if l = [] then 0 else max 0 (levelOver 0 l - (ratedNow d b - 400))

/-- ρ on output branch b (R189, R192, R193, R269); −32,768 where no probe is sent on it: it is off, or gated with its branch.
Where the bound asks for a lowering, how the segments share it is not stated (log entry 50). -/
def probeDensB (d : Dev) (n b : Nat) : Int :=
  let rel : Int := rd d (pgSEG n) SEG.PRB_LEVEL_REL
  if ¬ isActive d n ∨ probeOff d n ∨ isGated d n then -32768
  else if surveyLevel d n then
    let excess := surveyOver d b
    surveyDens d n - (if excess = 0 then 0 else excess + Config.surveyCut n)
  else
    let tx := branchTXN d b
    let base := if isMuted d n then tx else psum [noiseIn d n + gainNow d n, tx]
    base - rel + (if burstOn d (inBranch d n) then min (rd d pgPRB PRB.SOUND_CFG_BOOST : Int) rel else 0) - quietDrop d n

/-- ρ of every output branch of a segment. -/
def probeDensAll (d : Dev) (n : Nat) : List Int := (outs d n).map (probeDensB d n)
/-- ρ of the first output branch (PRB_STAT.DENS). -/
def probeDens (d : Dev) (n : Nat) : Int := (probeDensAll d n).headD (-32768)

/-- The density of a frame on output branch b (R221). -/
def frameDens (d : Dev) (n b : Nat) : Int :=
  let rel : Int := rd d (pgSEG n) SEG.PRB_LEVEL_REL
  let tx := branchTXN d b
  (if isMuted d n then tx else psum [noiseIn d n + gainNow d n, tx]) - (rel - min (rdS d pgLNK LNK.LNK_TXP_TX_BOOST) rel)

/-- The automatic code length of a rate (Table 7.2). -/
def autoLen (rate : Nat) : Nat := if rate < 6 then 0 else 1

/-- The probes at stage 10 follow. -/
def aimProbe (n : Nat) (d : Dev) : Dev := aimDens d n ((outs d n).zip (isoRt d n).dens)

/-- PRB_STAT at phase 25.00 µs (R189). -/
def refreshProbe (n : Nat) (d : Dev) : Dev :=
  let d := wrS d (pgSEG n) SEG.PRB_STAT_DENS (probeDens d n)
  let d := modIso d n fun i => { i with dens := probeDensAll d n }
  let d := wrB d (pgSEG n) SEG.PRB_STAT_SURVEY (surveyLevel d n)
  wrB d (pgSEG n) SEG.PRB_STAT_BURST (isActive d n && burstOn d (inBranch d n))

end Sys2Proof.Machine
end

