-- ==== Sys2Proof/Machine/Link.lean ====
section
/-!
DEFINITION. The Cricket link and the repeater fabric: messages, frames, receptions, the neighbour table and the yield
rule (R213 to R245).
-/

namespace Sys2Proof.Machine

/-- The least fabric gains that count: cap sources 0, 1, 2, 4 and 5 as latched (R217). -/
def fabricLeast (d : Dev) (n : Nat) : Int :=
  let s := (ctxRt d n).res.srcs
  (List.range 6).foldl (fun m i => if i = 3 then m else min m (s.getD i 2200)) 2200

/-- GF of a listening slot, from the sources given for each segment (R217). -/
def fabricGain (d : Dev) (src : Nat → Int) (l : Nat) : Int :=
  if lsnValid d l then
    match (d.act.filter fun n => isActive d n && alike d (lsnSeg d l) n).map src with
    | [] => 0
    | x :: t => t.foldl max x
  else 0

def gfOf (d : Dev) (l : Nat) : Int := s16 (rd d pgLSN (LSN.LSN_STAT_GF l))

/-! Messages (R222, R234) -/

/-- Queue a message: it takes the next SEQ; it replaces a pending one of its type and addressee, but for ACK. -/
def queueMsg (d : Dev) (typ dst : Nat) (body : List Nat) : Dev :=
  let seq := rd d pgLNK LNK.LNK_STAT_SEQ
  let d := incr d pgLNK LNK.LNK_STAT_SEQ
  modLnk d fun k =>
    { k with txq := (k.txq.filter fun m => ! (decide (m.typ = typ ∧ m.dst = dst) && decide (typ ≠ mACK)))
                      ++ [⟨typ, dst, seq, beBytes seq 2 ++ body, [], 0, 0⟩] }

/-- The engine sends messages (R214, R242). -/
def canSend (d : Dev) : Bool := linkOn d

/-- The highest probe density over a segment's branches (Table 8.5). -/
def densOf (d : Dev) (n : Nat) : Int := ((isoRt d n).dens).foldl max (-32768)

/-- A HELLO's entry for a slot (Table 8.5). -/
def helloEntry (d : Dev) (l : Nat) : List Nat :=
  let n := lsnSeg d l
  let x := defOf d n
  beBytes x.centre 4 ++ [x.rate * 32 + b2n x.uplink * 16 + rd d (pgSEG n) SEG.PRB_STAT_LEN_NOW * 4]
    ++ beBytes (u16 (densOf d n)) 2 ++ beBytes (u16 (gfOf d l)) 2

/-- The working slots in turn from a slot on. -/
def slotTurn (d : Dev) (from' : Nat) : List Nat :=
  ((List.range 16).map fun i => (from' + i) % 16).filter (lsnValid d)

/-- HELLO_INT has passed (R234). -/
def helloTimer (d : Dev) : Dev :=
  let l := (slotTurn d d.lnk.turn).take 5
  if ¬ canSend d ∨ l = [] then d
  else
    let d := queueMsg d mHELLO 0 (l.length :: (l.map (helloEntry d)).flatten)
    modLnk d fun k => { k with turn := (l.getLastD 0 + 1) % 16 }

/-- The slots of an entry that hold a C_IN. -/
def cinSlots (d : Dev) (e : Nb) : List Nat := slots16.filter fun l => isPair d e l && (pairOf e l).cIn.isSome

/-- A report's entry (Table 8.5). -/
def reportEntry (d : Dev) (e : Nb) (l : Nat) : List Nat :=
  let x := defOf d (lsnSeg d l)
  let p := pairOf e l
  beBytes x.centre 4 ++ [4 + b2n p.boundIn * 2 + b2n x.uplink] ++ beBytes (u16 (p.cIn.getD 2800)) 2
    ++ beBytes (u16 (gfOf d l)) 2 ++ beBytes (u16 p.yOwn) 2

/-- A COUPLING_REPORT to a neighbour that is ACTIVE. -/
def sendReport (d : Dev) (i : Nat) : Dev :=
  let e := nbOf d i
  let l := (cinSlots d e).take 4
  if ¬ canSend d ∨ e.state ≠ nbACTIVE ∨ l = [] then d
  else queueMsg d mREPORT e.id (l.length :: (l.map (reportEntry d e)).flatten)

/-- The entries in use. -/
def nbUsed (d : Dev) : List Nat := (d.lnk.nbs.filter fun e => decide (e.2.state ≠ nbEMPTY)).map (·.1)

/-- REPORT_INT has passed (R234). -/
def reportTimer (d : Dev) : Dev := forEach (nbUsed d) (fun i d => sendReport d i) d

/-- A GAIN_YIELD with the neighbour's pairs that hold an LP, at most five (Table 8.4). It is queued whether or not frames go
out (R239). -/
def sendYield (d : Dev) (i : Nat) : Dev :=
  let e := nbOf d i
  let l := (slots16.filter fun l => isPair d e l && (pairOf e l).lp.isSome).take 5
  if l = [] then d
  else
    queueMsg d mYIELD e.id (l.length :: (l.map fun l =>
      let x := defOf d (lsnSeg d l)
      let p := pairOf e l
      beBytes x.centre 4 ++ [b2n x.uplink] ++ beBytes (u16 (p.lp.getD 0)) 2 ++ beBytes (u16 p.yOwn) 2).flatten)

def sendAck (d : Dev) (dst seq : Nat) : Dev := if canSend d then queueMsg d mACK dst (beBytes seq 2) else d

/-! The yield rule (R237 to R241) -/

/-- The engine yields as the higher identity of the pair. -/
def yields (d : Dev) (id : Nat) : Bool := decide (id < nodeId d) || rdB d pgLNK LNK.LNK_STAT_DUP_ID

def loopMargin (d : Dev) : Int := rdS d pgLNK LNK.LNK_MARGIN_LOOP_MARGIN
def relHyst (d : Dev) : Int := rd d pgLNK LNK.LNK_MARGIN_RELEASE_HYST

/-- A time of so many seconds has passed since an instant. -/
def lasted (d : Dev) (since : Option Nat) (secs : Nat) : Bool :=
  match since with
  | some t => decide (t + 32000 * secs ≤ d.devLoop)
  | none => false

/-- Since when a finding holds that holds now. -/
def since (d : Dev) (now : Bool) (was : Option Nat) : Option Nat :=
  if now then (match was with | some t => some t | none => some d.devLoop) else none

/-- K after an evaluation that found T and LP (R239), with the hold's start. -/
def nextK (d : Dev) (owed : Bool) (t k : Int) (rise : Option Nat) : Int × Option Nat :=
  if t < k ∧ owed then (t, none)
  else
    let r := since d (decide (k + relHyst d ≤ t)) rise
    if lasted d r (rd d pgLNK LNK.LNK_HOLD_HOLD) then ((if owed then t else 2200), none) else (k, r)

/-- A pair after an evaluation (R237 to R240); C_IN is known. -/
def evalPair (d : Dev) (e : Nb) (l : Nat) (cIn : Int) (p : NbPair) : NbPair :=
  let own := gfOf d l
  let rep := repFor d e l
  let gNb := match rep, spanFor d e l with
    | some r, _ => r.gf
    | none, some s => s.gf
    | none, none => 0
  let cOut := match rep with
    | some r => r.cIn
    | none => cIn
  let lp := own - cOut + gNb - cIn
  let owed := decide (-loopMargin d < lp)
  let t := cOut + cIn - gNb - loopMargin d
  if yields d e.id then
    let (k, r) := nextK d owed t p.k p.rise
    { p with lp := some lp, k := k, rise := r, owe := owed, yOwn := if owed then own - t else 0, past := none,
             raised := decide (t < 0) }
  else
    let ov := since d (decide (-loopMargin d + relHyst d < lp - yieldFor d e l)) p.past
    { p with lp := some lp, k := 2200, rise := none, owe := false, yOwn := 0, past := ov,
             raised := lasted d ov (rd d pgLNK LNK.LNK_TXP_YIELD_WAIT) }

/-- A segment lies under LOOP_NEIGHBOUR of some pair. -/
def nbCovered (d : Dev) (n : Nat) : Bool :=
  d.lnk.nbs.any fun e => e.2.pairs.any fun p => p.2.raised && isPair d e.2 p.1 && alike d (lsnSeg d p.1) n

/-- The segments on which LOOP_NEIGHBOUR is to be raised or ended. -/
def nbChanged (d : Dev) : List Nat := d.act.filter fun n => (condOf d 3 n).present != nbCovered d n

/-- LOOP_NEIGHBOUR is raised or ended on the segments concerned (Table 9.1), with INT_RAW bit 4 (R240). -/
def refreshNb (d : Dev) : Dev :=
  let l := nbChanged d
  let d := forEach d.act (fun n d =>
    if nbCovered d n then npRaise d 3 n else if (condOf d 3 n).present then npEnd d 3 n else d) d
  if l = [] then d else raise d pgLNK 4

/-- One pair is evaluated. -/
def evalOne (i : Nat) (d : Dev) (l : Nat) : Dev :=
  let e := nbOf d i
  let p := pairOf e l
  match p.cIn with
  | none => d
  | some c =>
    if nodeId d = 0 ∨ ¬ isPair d e l then d
    else
      let q := evalPair d e l c p
      let d := setNb d i (setPair e l q)
      let d := if q.k = p.k then d else raiseTally d pgLNK 3
      if q.k = p.k ∧ q.yOwn = p.yOwn then d else sendYield d i

/-- Every pair of an entry, and every pair. -/
def evalNb (d : Dev) (i : Nat) : Dev := refreshNb (slots16.foldl (evalOne i) d)
def evalAll (d : Dev) : Dev := refreshNb (forEach (nbUsed d) (fun i d => slots16.foldl (evalOne i) d) d)

/-- The loop periods of an estimate of C_IN: CPL_TIME, rounded up to cover cycles of the neighbour's code (R218). -/
def cinTime (d : Dev) (l len : Nat) : Nat :=
  let per := 2 ^ rd d (pgSEG (lsnSeg d l)) SEG.PATH_CFG_RATE
  let c := 32 * (2 ^ (10 + 2 * len) - 1)
  (rd d pgLNK LNK.LNK_CPL_CPL_TIME * 1920 * per + c - 1) / c * c / (60 * per)

/-- An estimate of C_IN completes (R218, R235): `rows` are the densities received under the detected cover rows, in 0.01 dB, and
`bound` is the bound of R195 where none is. C_IN = ρ_nb − ρ_rx; a value above 140 dB reads 140 dB and BOUND_IN. One that has not
run its length since the last event that discards it cannot complete. -/
def cinDone (d : Dev) (l id : Nat) (rows : List Int) (bound : Int) : Dev :=
  match nbFind d id with
  | none => d
  | some i =>
    let e := nbOf d i
    match spanFor d e l with
    | none => d
    | some sp =>
      let p := pairOf e l
      if ¬ isPair d e l ∨ d.devLoop + 1 < max p.since (isoRt d (lsnSeg d l)).cut + cinTime d l sp.len then d
      else
        let c := if rows = [] then bound else sp.dens - psumC rows
        let v := min 2800 c
        let big := match p.cIn with | some o => decide (60 < v - o ∨ 60 < o - v) | none => false
        let e := setPair e l { p with cIn := some v, boundIn := rows.isEmpty || decide (2800 < c), since := d.devLoop }
        let d := setNb d i { e with state := if e.state = nbNEW then nbACTIVE else e.state }
        evalNb (if big then sendReport d i else d) i

/-- The estimates of a listening slot begin anew where its segment changes. -/
def cinRestart (l : Nat) (d : Dev) : Dev :=
  forEach (nbUsed d) (fun i d => setNb d i (setPair (nbOf d i) l { pairOf (nbOf d i) l with since := d.devLoop })) d

/-! Sending frames (R221 to R225) -/

/-- The listening slots on the span of a talking slot's segment. -/
def deafened (d : Dev) (t : Nat) : List Nat :=
  slots16.filter fun l => lsnValid d l && overlaps (defOf d (tlkSeg d t)) (defOf d (lsnSeg d l))

/-- A frame's bytes with an injector's masks (Table 20.2). -/
def corrupt (l : List Nat) (masks : List (Nat × Nat)) : List Nat :=
  masks.foldl (fun b m => if b.length ≤ m.1 then b.dropLast ++ [b.getLastD 0 ^^^ (m.2 % 256)]
    else b.set m.1 (b.getD m.1 0 ^^^ (m.2 % 256))) l

/-- The branch of a talking slot, and its probe's code period in segment samples. -/
def tlkBranch (d : Dev) (t : Nat) : Nat := rd d pgLTX (LTX.TLK_CFG_BRANCH t)
def codeLen (d : Dev) (n : Nat) : Nat := coverLen d n / 16

/-- A frame is on its way, from the end of its backoff. Its symbols, if any, go out as chips and make listening slots DEAF
(R221, R224, Table 20.2). -/
def txTake (d : Dev) (t : Nat) (m : Msg) (syms : List Bool) : Dev :=
  let x := defOf d (tlkSeg d t)
  slots16.foldl rxTidy (modTalk d t fun k =>
    { k with msg := some m, chips := ! syms.isEmpty, syms := syms, first := (k.back.map Prod.snd).getD 0,
             span := if syms.isEmpty then k.span else some (x.lo2, x.hi2), wait := none, back := none })

/-- The frame goes out, with its CRC-16 formed before an injector's masks. -/
def txBegin (d : Dev) (t : Nat) (m : Msg) (masks : List (Nat × Nat)) : Dev :=
  let syms := frameSymbols m.typ (nodeId d) m.dst (corrupt m.bytes masks) (crc16 m.bytes)
  emitD (txTake d t m syms) (.linkFrame t (rd d pgLTX (LTX.TLK_CFG_SF t)) (frameDens d (tlkSeg d t) (tlkBranch d t)) syms)

/-- The message whose frame a slot sends next: the held one once it is free to go, else the first in the queue's order. -/
def txNext (d : Dev) (t : Nat) : Option Msg :=
  match heldTxOf d t with
  | some (m, true) => some m
  | _ => nextMsg d t

/-- The backoff of a message in probe code periods (R223). -/
def backoff (d : Dev) (seq : Nat) : Nat := (nodeId d * 7 + seq) % 16

/-- Every listening slot that searches on the span is free of a reception past SYNC (R223). One that does not search receives
nothing and is left out (DEDUCED, log entry 68). -/
def airFree (d : Dev) (t : Nat) : Bool :=
  (deafened d t).all fun l => [rxSEARCH, rxSYNC, rxDEAF, rxOFF].contains (rxState d l)

/-- The probe code-period boundaries of the loop period that ends: a backoff begins at the first at which the span is free, or
once the slot has waited 60 s at the next (R223). What the slots do is looked at at the latch. -/
def talkTick (d : Dev) (t : Nat) : Dev :=
  let n := tlkSeg d t
  let k := talkOf d t
  let d := match k.resume with
    | some r => if r.2.2 ≤ (isoRt d r.1).phase then modTalk d t fun k => { k with resume := none } else d
    | none => d
  let st := tlkState d t
  if st = 1 then
    let now := (isoRt d n).phase
    let since := k.wait.getD d.devLoop
    let c := codeLen d n
    let b := now / c * c
    match txNext d t with
    | some m =>
      if now < b + perSamples d n ∧ (airFree d t = true ∨ since + 1920000 ≤ d.devLoop) then
        modTalk d t fun k => { k with wait := some since, back := some (m.seq, b + c * backoff d m.seq) }
      else modTalk d t fun k => { k with wait := some since }
    | none => d
  else if st = 2 then
    match k.back with
    | some (seq, at') =>
      if (txNext d t).any (fun m => decide (m.seq = seq)) && decide (at' ≤ (isoRt d n).phase + 16 * codeLen d n) then d
      else modTalk d t fun k => { k with back := none }
    | none => d
  else modTalk d t fun k => { k with wait := none, back := none }
def talkLatch (d : Dev) : Dev := slots8.foldl talkTick d

/-- A talking slot starts a frame once its backoff has run (R222, R223, R475 to R478). -/
def frameTxStart (d : Dev) (t : Nat) : Dev :=
  match (talkOf d t).back, txNext d t with
  | some (seq, at'), some m =>
    if tlkState d t ≠ 2 ∨ m.seq ≠ seq ∨ (isoRt d (tlkSeg d t)).phase + perSamples d (tlkSeg d t) < at' then d
    else
      match heldTxOf d t with
      | some (_, true) => txBegin (setHeldTx d t none) t m []
      | held =>
        let (r, res) := if held.isSome then (d.rep, InjOut.pass []) else injMeet d 2 t 0 m.seq 8 0 d.rep []
        let d := { d with rep := r }
        match res with
        | .drop => txTake d t m []
        | .hold => modTalk (setHeldTx d t (some (m, false))) t fun k => { k with back := none }
        | .pass masks => txBegin d t m masks
  | _, _ => d

/-- A frame's last chip is sent: counts, the probe resumes at the next code-period boundary (R221), and the message leaves the
queue once it has gone out on all slots. A frame an injector held follows. -/
def frameTxEnd (d : Dev) (t : Nat) : Dev :=
  match sendingOf d t with
  | none => d
  | some m =>
    let n := tlkSeg d t
    let b := tlkBranch d t
    let d := modTalk d t fun k =>
      { k with msg := none, chips := false, syms := [],
               resume := if k.chips then some (n, b, ((isoRt d n).phase / codeLen d n + 1) * codeLen d n) else k.resume }
    let d := incr (bump d pgLNK LNK.LNK_CNT0_TX_OK) pgLTX (LTX.TLK_STAT_SENT t)
    let d := match heldTxOf d t with
      | some (h, false) => { setHeldTx d t (some (h, true)) with rep := releaseHeld d.rep 2 t 0 8 0 }
      | _ => d
    let d := modLnk d fun k =>
      { k with txq := k.txq.map fun q => if q.seq = m.seq ∧ q.typ = m.typ ∧ q.dst = m.dst ∧ ¬ q.sent.contains t
                                         then { q with sent := q.sent ++ [t], last := d.devLoop } else q }
    linkTidy (cfgTake d t)

/-- One code period after the last chip the slots search again (R224). -/
def deafEnd (d : Dev) (t : Nat) : Dev :=
  if (sendingOf d t).isSome ∧ (talkOf d t).chips = true then d else modTalk d t fun k => { k with span := none }

/-- What an output branch of a segment carries at stage 10: its probe, a frame of a talking slot, or no chips (R221). -/
inductive Carries where
  | probe
  | frame (t : Nat)
  | none
deriving DecidableEq, Repr
def carries (d : Dev) (n b : Nat) : Carries :=
  match slots8.find? fun t => (talkOf d t).chips && decide (tlkSeg d t = n ∧ tlkBranch d t = b) with
  | some t => .frame t
  | none =>
    if slots8.any fun t => (talkOf d t).resume.any fun r => decide (r.1 = n ∧ r.2.1 = b) then .none else .probe

/-- A GAIN_YIELD stays unacknowledged for ACK_WAIT (R225). A newer one that is pending takes its place (R222). -/
def ackTimeout (d : Dev) (dst : Nat) : Dev :=
  match d.lnk.acks.find? fun m => decide (m.dst = dst) && lasted d (some m.last) (rd d pgLNK LNK.LNK_WAIT_ACK_WAIT) with
  | none => d
  | some m =>
    let d := modLnk d fun k => { k with acks := k.acks.filter (· ≠ m) }
    if d.lnk.txq.any fun q => decide (q.typ = mYIELD ∧ q.dst = dst) then d
    else if m.tries < 3 then modLnk d fun k => { k with txq := k.txq ++ [{ m with tries := m.tries + 1, sent := [] }] }
    else
      let d := match nbFind d dst with
        | some i => setNb d i { nbOf d i with noAck := true }
        | none => d
      raiseTally d pgLNK 5

/-! Receiving (R226 to R233) -/

/-- Chips of an SF code (Table 7.1). -/
def sfChips (sf : Nat) : Nat := if sf = 0 then 1023 else if sf = 1 then 4095 else if sf = 2 then 16383 else 65535

/-- S + 10 × log10(8 × SF) ≥ DET_TH, in level units (R226). -/
def detected (d : Dev) (sf : Nat) (s : Int) : Bool :=
  decide (10 ^ ((rd d pgLNK LNK.LNK_DET_DET_TH : Int) - s).toNat ≤ (8 * sfChips sf) ^ 200)

/-- A detection goes before another of the same code period (R232). -/
def detBefore (a b : Det) : Bool :=
  decide (b.s < a.s) || (decide (a.s = b.s) && (decide (a.sf < b.sf) || (decide (a.sf = b.sf) && decide (a.lag ≤ b.lag))))
def detInsert (a : Det) : List Det → List Det
  | [] => [a]
  | b :: t => if detBefore a b then a :: b :: t else b :: detInsert a t

/-- A detection is no older than 8 code periods of its SF (R230). -/
def detLive (d : Dev) (l : Nat) (x : Det) : Bool :=
  decide ((d.devLoop - x.time) * perSamples d (lsnSeg d l) ≤ 16 * sfChips x.sf + perSamples d (lsnSeg d l))

/-- A detection coincides with the frame being received: its SF, and its code timing within one chip (R226). -/
def coincides (r : Rx) (x : Det) : Bool :=
  let c := sfChips x.sf
  decide (x.sf = r.sf) && decide ((x.lag + c - r.lag % c) % c ≤ 1 ∨ (r.lag + c - x.lag % c) % c ≤ 1)

/-- A reception starts (R228). -/
def rxStart (d : Dev) (l : Nat) (x : Det) : Dev :=
  let d := wrS (bump d pgLNK LNK.LNK_CNT1_DETECT) pgLSN (LSN.LSN_NF_METRIC l) x.s
  modRx d l fun r => { r with state := rxSYNC, sf := x.sf, s := x.s, lag := x.lag, hdr := none, keep := r.keep.erase x }

/-- One detection on a slot (R226, R229 to R232). -/
def detectOne (l : Nat) (d : Dev) (x : Det) : Dev :=
  let r := rxOf d l
  if r.state = rxSEARCH then rxStart d l x
  else if coincides r x then d
  else if r.s + rd d pgLNK LNK.LNK_DET_CAPTURE ≤ x.s then rxStart (bump d pgLNK LNK.LNK_CNT2_PREEMPT) l x
  else modRx (bump d pgLNK LNK.LNK_CNT3_IGNORED) l fun r => { r with keep := x :: r.keep.filter (detLive d l) }

/-- A slot's noise floor counts the samples taken in SEARCH (R227). -/
def setNf (d : Dev) (l : Nat) (nf : Int) : Dev :=
  if rxState d l = rxSEARCH then wrS d pgLSN (LSN.LSN_NF_NF l) nf else d

/-- The detections of one code period on a slot, with the noise floor they were formed against. -/
def preamble (d : Dev) (l : Nat) (nf : Int) (dets : List Det) : Dev :=
  if ¬ searching d l ∨ deafNow d l = true then d
  else ((dets.filter fun x => detected d x.sf x.s).foldr detInsert []).foldl (detectOne l) (setNf d l nf)

/-- The strongest detection that a slot ignored and that is live (R230). -/
def keptBest (d : Dev) (l : Nat) : Option Det :=
  ((rxOf d l).keep.filter (detLive d l)).foldl (fun m x =>
    match m with
    | some y => if y.s < x.s then some x else some y
    | none => some x) none

/-- A reception ends; a false start takes up the kept detection where its sync periods have not begun, which `live` says
(R228, R230). -/
def rxEnd (d : Dev) (l : Nat) (falseStart live : Bool) : Dev :=
  let d := if falseStart then bump d pgLNK LNK.LNK_CNT1_FALSE_START else d
  let d := modRx d l fun x => { x with state := rxSEARCH, hdr := none }
  match keptBest d l with
  | some x => if falseStart ∧ live then rxStart d l x else d
  | none => d

def syncFound (d : Dev) (l : Nat) : Dev :=
  if rxState d l = rxSYNC then modRx d l fun x => { x with state := rxHEADER } else d
def syncTimeout (d : Dev) (l : Nat) (live : Bool) : Dev :=
  if rxState d l = rxSYNC then rxEnd d l true live else d

/-- The header is decoded (R228). -/
def headerDone (d : Dev) (l : Nat) (h : Header) (live : Bool) : Dev :=
  if rxState d l ≠ rxHEADER then d
  else if ¬ h.ok ∨ h.ver ≠ 0 ∨ h.typ = 0 ∨ 4 < h.typ ∨ h.len < 4 ∨ 48 < h.len then rxEnd d l true live
  else if h.dst ≠ 0 ∧ h.dst ≠ nodeId d then rxEnd d l false live
  else modRx d l fun x => { x with state := rxPAYLOAD, hdr := some (h.typ, h.len, h.src, h.dst) }

/-- The sequence number is one of the last eight accepted from the node, or that of a frame handed over before (R233). -/
def seqSeen (d : Dev) (src seq : Nat) : Bool :=
  (match nbFind d src with
   | some i => (nbOf d i).seqs.contains seq
   | none => false) || d.lnk.frames.any fun f => decide (f.src = src ∧ beAt f.bytes 0 2 = seq)

/-- A frame meets the CRC-16 check, the counters, the identity check and the duplicates (R228, R233, R241). -/
def frameIn (d : Dev) (f : RxFrame) (crcOk : Bool) : Dev :=
  if ¬ crcOk then bump d pgLNK LNK.LNK_CNT2_PAY_CRC
  else
    let d := bump d pgLNK LNK.LNK_CNT0_RX_OK
    let seq := beAt f.bytes 0 2
    if f.src = nodeId d then raiseTally (wr d pgLNK LNK.LNK_STAT_DUP_ID 1) pgLNK 6
    else if seqSeen d f.src seq then
      let d := bump d pgLNK LNK.LNK_CNT4_DUPLICATE
      if f.typ = mYIELD then sendAck d f.src seq else d
    else if (nbFind d f.src).isSome ∨ f.typ = mHELLO then modLnk d fun k => { k with frames := k.frames ++ [f] }
    else d

def heldRxOf (d : Dev) (l : Nat) : Option (RxFrame × Bool) := tget (fun _ => none) d.lnk.heldRx l
def setHeldRx (d : Dev) (l : Nat) (x : Option (RxFrame × Bool)) : Dev :=
  modLnk d fun k => { k with heldRx := tset (fun _ => none) k.heldRx l x }

/-- A held frame follows. -/
def releaseRx (d : Dev) (l : Nat) : Dev :=
  match heldRxOf d l with
  | some (f, ok) => frameIn { setHeldRx d l none with rep := releaseHeld d.rep 2 l 1 8 0 } f ok
  | none => d

/-- The payload is decoded: its bytes and the CRC-16 that follows them (R228, R475). -/
def payloadDone (d : Dev) (l : Nat) (bytes : List Nat) (crc : Nat) : Dev :=
  if rxState d l ≠ rxPAYLOAD then d
  else
    match (rxOf d l).hdr with
    | none => d
    | some (typ, len, src, _) =>
      let f : RxFrame := ⟨l, (rxOf d l).sf, typ, src, bytes.take len⟩
      let (r, res) := if (heldRxOf d l).isSome then (d.rep, InjOut.pass [])
        else injMeet d 2 l 1 (beAt bytes 0 2) 8 0 d.rep []
      let d := rxEnd { d with rep := r } l false false
      match res with
      | .drop => d
      | .hold => setHeldRx d l (some (f, decide (crc16 f.bytes = crc)))
      | .pass masks =>
        let b := corrupt f.bytes masks
        releaseRx (frameIn d { f with bytes := b } (decide (crc16 b = crc))) l

/-! Messages received (R234 to R236) -/

/-- The oldest frame handed over, where it is of a type. -/
def takeFrame (d : Dev) (typ : Nat) : Option (RxFrame × Dev) :=
  match d.lnk.frames with
  | f :: t => if f.typ = typ then some (f, modLnk d fun k => { k with frames := t }) else none
  | [] => none

/-- A frame is accepted: the entry hears, the item and the event are made (R233, R235). -/
def acceptFrame (d : Dev) (f : RxFrame) (i : Nat) : Dev :=
  let e := nbOf d i
  let d := setNb d i { e with heard := some d.devLoop, seqs := (beAt f.bytes 0 2 :: e.seqs).take 8,
                              state := if e.state = nbSTALE then nbACTIVE else e.state }
  putItem (raise d pgLNK 0) (qSeg (lsnSeg d f.slot) 5) 0x28 4
    ([(f.typ, 4), (f.bytes.length, 6), (f.src, 14), (f.slot, 4), (f.sf, 2), (0, 2)] ++ f.bytes.map fun b => (b, 8))

/-- COUNT entries of `w` bytes after SEQ and COUNT; none where the lengths disagree. -/
def entriesOf (f : RxFrame) (w top : Nat) : Option (List (List Nat)) :=
  let c := beAt f.bytes 2 1
  if 1 ≤ c ∧ c ≤ top ∧ f.bytes.length = 3 + w * c then some ((List.range c).map fun j => (f.bytes.drop (3 + w * j)).take w)
  else none

def parseSpan (b : List Nat) : Span :=
  { centre := beAt b 0 4, rate := beAt b 4 1 / 32, dir := beAt b 4 1 / 16 % 2, len := beAt b 4 1 / 4 % 4,
    dens := s16 (beAt b 5 2), gf := s16 (beAt b 7 2) }

/-- New spans replace those of the same centre and direction; the others are kept (R235). -/
def mergeSpans (old new : List Span) : List Span :=
  new ++ old.filter fun s => ! new.any fun t => decide (t.centre = s.centre ∧ t.dir = s.dir)
def mergeReps (old new : List NbRep) : List NbRep :=
  new ++ old.filter fun s => ! new.any fun t => decide (t.centre = s.centre ∧ t.dir = s.dir)
def mergeYields (old new : List (Nat × Nat × Int)) : List (Nat × Nat × Int) :=
  new ++ old.filter fun s => ! new.any fun t => decide (t.1 = s.1 ∧ t.2.1 = s.2.1)

/-- The neighbour of a pair owes a yield: this engine supervises the pair, and its LP lies above the limit (R238, R240). -/
def nbOwes (d : Dev) (e : Nb) (p : NbPair) : Bool :=
  ! yields d e.id && (match p.lp with | some lp => decide (-loopMargin d < lp) | none => false)
/-- An entry owes no yield, is owed none and has none reported (R236). -/
def nbFree (d : Dev) (e : Nb) : Bool :=
  (e.pairs.all fun p => ! p.2.owe && ! nbOwes d e p.2) && e.yields.all fun y => decide (y.2.2 = 0)

/-- The STALE entry that a new HELLO evicts: the oldest HEARD of those that qualify. -/
def evictable (d : Dev) : Option Nat :=
  (d.lnk.nbs.filter fun e => decide (e.2.state = nbSTALE) && ! e.2.pin && nbFree d e.2).foldl
    (fun (m : Option Nat) e =>
      match m with
      | none => some e.1
      | some j => if (e.2.heard.getD 0) < ((nbOf d j).heard.getD 0) then some e.1 else some j) none

/-- A free index. -/
def nbSlot (d : Dev) : Option Nat := (List.range 256).find? fun i => decide ((nbOf d i).state = nbEMPTY)

/-- A new entry. -/
def nbCreate (d : Dev) (i id : Nat) (pin : Bool) : Dev :=
  raise (setNb d i { nb0 with id := id, state := nbNEW, pin := pin }) pgLNK 1

/-- The entry a HELLO goes to, created or taken over; none where it is refused. -/
def helloSlot (d : Dev) (id : Nat) : Dev × Option Nat :=
  match nbFind d id with
  | some i => (d, some i)
  | none =>
    match nbSlot d with
    | some i => (nbCreate d i id false, some i)
    | none =>
      match evictable d with
      | some i => (refreshNb (nbCreate (raise d pgLNK 2) i id false), some i)
      | none => (raiseTally (bump d pgLNK LNK.LNK_CNT4_REFUSED) pgLNK 2, none)

def rxHello (d : Dev) : Dev :=
  match takeFrame d mHELLO with
  | none => d
  | some (f, d) =>
    match entriesOf f 9 5 with
    | none => d
    | some l =>
      match helloSlot d f.src with
      | (d, none) => d
      | (d, some i) =>
        let d := acceptFrame d f i
        evalNb (setNb d i { nbOf d i with spans := mergeSpans (nbOf d i).spans (l.map parseSpan) }) i

/-- A report's entry, with its VALID bit and its Y. -/
def parseRep (b : List Nat) : NbRep × Bool × Int :=
  (⟨beAt b 0 4, beAt b 4 1 % 2, nbit (beAt b 4 1) 1, s16 (beAt b 5 2), s16 (beAt b 7 2)⟩, nbit (beAt b 4 1) 2,
    s16 (beAt b 9 2))

def rxReport (d : Dev) : Dev :=
  match takeFrame d mREPORT with
  | none => d
  | some (f, d) =>
    match entriesOf f 11 4, nbFind d f.src with
    | some l, some i =>
      let d := acceptFrame d f i
      let e := nbOf d i
      let l := (l.map parseRep).filter fun x => x.2.1
      evalNb (setNb d i { e with report := some d.devLoop, reps := mergeReps e.reps (l.map (·.1)),
                                 yields := mergeYields e.yields (l.map fun x => (x.1.centre, x.1.dir, x.2.2)) }) i
    | _, _ => d

def rxYield (d : Dev) : Dev :=
  match takeFrame d mYIELD with
  | none => d
  | some (f, d) =>
    match entriesOf f 9 5, nbFind d f.src with
    | some l, some i =>
      let d := acceptFrame d f i
      let e := nbOf d i
      let d := setNb d i
        { e with yields := mergeYields e.yields (l.map fun b => (beAt b 0 4, beAt b 4 1 % 2, s16 (beAt b 7 2))) }
      evalNb (sendAck d f.src (beAt f.bytes 0 2)) i
    | _, _ => d

def rxAck (d : Dev) : Dev :=
  match takeFrame d mACK with
  | none => d
  | some (f, d) =>
    match nbFind d f.src with
    | some i =>
      let d := acceptFrame d f i
      let d := setNb d i { nbOf d i with noAck := false }
      let other (m : Msg) : Bool := ! decide (m.typ = mYIELD ∧ m.dst = f.src ∧ m.seq = beAt f.bytes 2 2)
      modLnk d fun k => { k with acks := k.acks.filter other, txq := k.txq.filter other }
    | none => d

/-- No frame for STALE seconds (R235). -/
def nbStale (d : Dev) (id : Nat) : Dev :=
  match nbFind d id with
  | some i =>
    if (nbOf d i).state = nbACTIVE ∧ lasted d ((nbOf d i).heard.or (some 0)) (rd d pgLNK LNK.LNK_HOLD_STALE) then
      setNb d i { nbOf d i with state := nbSTALE }
    else d
  | none => d

/-- Identities of neighbours (R214). -/
def idOk (id : Nat) : Bool := decide (1 ≤ id ∧ id ≤ 0x3E80)

def nbPin (d : Dev) (id : Nat) : Dev :=
  match nbFind d id with
  | some i => setNb d i { nbOf d i with pin := true }
  | none =>
    match nbSlot d with
    | some i => if idOk id then nbCreate d i id true else setError d pgLNK 0x98
    | none => setError d pgLNK 0x98
def nbUnpin (d : Dev) (id : Nat) : Dev :=
  match nbFind d id with
  | some i => setNb d i { nbOf d i with pin := false }
  | none => d
def nbRemove (d : Dev) (id : Nat) : Dev :=
  match nbFind d id with
  | some i => if ¬ (nbOf d i).pin ∧ nbFree d (nbOf d i) then refreshNb (setNb d i nb0) else setError d pgLNK 0x98
  | none => setError d pgLNK 0x98

/-- LNK_CTRL.EN is written (R214). -/
def lnkEnable (d : Dev) (en : Bool) : Dev :=
  let d := linkTidy (wrB d pgLNK LNK.LNK_CTRL_EN en)
  if en ∧ nodeId d = 0 then setError d pgLNK 0x40 else d

end Sys2Proof.Machine
end

