-- ==== Sys2Proof/Machine/Power.lean ====
section
/-!
DEFINITION. The power cap, the hold-up store, the sensors, throttling, zone shutdown and cap source 4 (R336 to R355).
-/

namespace Sys2Proof.Machine

def modPwr (d : Dev) (f : Pwr → Pwr) : Dev := { d with pwr := f d.pwr }
def sensorOf (d : Dev) (i : Nat) : Sensor := tget (fun _ => sensor0) d.pwr.sensors i
def modSensor (d : Dev) (i : Nat) (f : Sensor → Sensor) : Dev :=
  modPwr d fun p => { p with sensors := tset (fun _ => sensor0) p.sensors i (f (sensorOf d i)) }

def zones8 : List Nat := List.range 8
def sensors14 : List Nat := List.range 14

/-- The zone of sensors 0 to 9 (Table 13.4). -/
def zoneOf (i : Nat) : Nat := if i < 4 then i else if i < 6 then 4 else if i < 8 then 5 else if i = 8 then 6 else 7
/-- The sensors of a zone. -/
def sensorsOf (z : Nat) : List Nat := (List.range 10).filter fun i => decide (zoneOf i = z)
/-- The substitute of a mapped-out sensor. -/
def substOf (i : Nat) : Nat := if i < 4 then 9 else if i = 4 then 5 else if i = 5 then 4 else if i = 6 then 7 else if i = 7 then 6
  else if i = 8 then 9 else 8

def snsClass (d : Dev) (i : Nat) : Nat := rd d pgTHM (THM.SNS_CLASS i)
def snsSteps (d : Dev) (i : Nat) : Nat := rd d pgTHM (THM.SNS_STEPS i)
def snsFailed (d : Dev) (i : Nat) : Bool := rdB d pgTHM (THM.SNS_FAILED i)
def snsMapped (d : Dev) (i : Nat) : Bool := rdB d pgTHM (THM.SNS_MAPPED i)
def snsTemp (d : Dev) (i : Nat) : Int := rdS d pgTHM (THM.SNS_TEMP i)
def snsThrOf (d : Dev) (i : Nat) : Int := rdS d pgTHM (THM.SNS_LIM_THR i)
def snsShutOf (d : Dev) (i : Nat) : Int := rdS d pgTHM (THM.SNS_LIM_SHUT i)
/-- The sentinel +150.0 °C (R346). -/
def sentinel : Int := 1500

/-! Cap source 4 (R340) -/

/-- The step count s_n of a segment. -/
def thermSteps (d : Dev) (n : Nat) : Nat :=
  maxOf ((zones8.map fun z => if 4 ≤ z ∨ hasOut d n z then rd d pgTHM (THM.ZONE_STEPS z) else 0)
    ++ ([10, 11, 12, 13].map fun i => if snsClass d i = 1 then snsSteps d i else 0)
    ++ [rd d pgPWR PWR.PWR_STAT_STEPS])

def thermRef (d : Dev) (n : Nat) : GainRef := tget (fun _ => GainRef.none) d.pwr.refs n
def setThermRef (d : Dev) (n : Nat) (r : GainRef) : Dev :=
  modPwr d fun p => { p with refs := tset (fun _ => GainRef.none) p.refs n r }

/-- The references follow the steps. -/
def thermApply (d : Dev) : Dev :=
  forEach d.act (fun n d => setThermRef d n (nextRef d n (thermSteps d n) (thermRef d n))) d

/-- Cap source 4, and cap source 5 (R21, R340): 1.5 dB and 3 dB a step below the reference. -/
def refCap (r : GainRef) (perStep steps : Nat) : Int :=
  match r with
  | .at g => if steps = 0 then 2200 else g - (perStep * steps : Nat)
  | _ => 2200
def thermCap (d : Dev) (n : Nat) : Int := refCap (thermRef d n) 30 (thermSteps d n)
def trimCap (d : Dev) (n : Nat) : Int := refCap (trimRef d n) 60 (trimSteps d n)

/-! Shedding (R339) -/

/-- A segment is shed. -/
def isShed (d : Dev) (n : Nat) : Bool := rdB d (pgSHED n) SHED.SHED_CFG_SHED

/-- The segment to shed: the lowest PRI, and among equals the highest index. -/
def shedPick (d : Dev) (ok : Nat → Bool) : Option Nat :=
  (d.act.filter fun n => isActive d n && ! isShed d n && ok n).foldl
    (fun (m : Option Nat) n =>
      match m with
      | none => some n
      | some k => if rd d (pgSHED n) SHED.SHED_CFG_PRI ≤ rd d (pgSHED k) SHED.SHED_CFG_PRI then some n else some k) none

def setShed (d : Dev) (n : Nat) (on : Bool) (cause : Nat) : Dev :=
  wr (wrB d (pgSHED n) SHED.SHED_CFG_SHED on) (pgSHED n) SHED.SHED_CFG_CAUSE (if on then cause else 0)

/-- Segments shed by the cap and by sensors, as PWR_STAT and THM_STAT show them. -/
def shedShown (d : Dev) : Dev :=
  let d := wr d pgPWR PWR.PWR_STAT_SHED d.pwr.shedCap.length
  wr d pgTHM THM.THM_STAT_SHED ((sensors14.map fun i => (sensorOf d i).shed.length).foldl (· + ·) 0)

/-- A segment is shed by the cap, or restored. -/
def capShed (d : Dev) (n : Nat) : Dev :=
  let d := modPwr (setShed d n true 1) fun p => { p with shedCap := p.shedCap ++ [n] }
  raise (npRaise (shedShown d) 8 n) pgPWR 2
def capRestore (d : Dev) (n : Nat) : Dev :=
  let d := modPwr (setShed d n false 0) fun p => { p with shedCap := p.shedCap.filter (· ≠ n) }
  raise (npEnd (shedShown d) 8 n) pgPWR 2

/-- A segment is shed by a sensor, or restored. -/
def snsShed (d : Dev) (i n : Nat) : Dev :=
  let d := modSensor (setShed d n true 0) i fun s => { s with shed := s.shed ++ [n] }
  raise (npRaise (shedShown d) 8 n) pgTHM 3
def snsRestore (d : Dev) (i n : Nat) : Dev :=
  let d := modSensor (setShed d n false 0) i fun s => { s with shed := s.shed.filter (· ≠ n) }
  raise (npEnd (shedShown d) 8 n) pgTHM 3

/-- A deactivated segment leaves the shed lists (R339). -/
def shedLeave (d : Dev) (n : Nat) : Dev :=
  let d := modPwr (setShed d n false 0) fun p => { p with shedCap := p.shedCap.filter (· ≠ n) }
  shedShown (forEach sensors14 (fun i d =>
    if (sensorOf d i).shed.contains n then modSensor d i fun s => { s with shed := s.shed.filter (· ≠ n) } else d) d)

/-! The power cap (R338) -/

/-- STEPS of the cap changes. -/
def capSteps (d : Dev) (k : Nat) : Dev := thermApply (raise (wr d pgPWR PWR.PWR_STAT_STEPS k) pgPWR 1)

/-- A change of the cap's doing: at most one in 5 s. -/
def capChange (d : Dev) (past : Bool) : Dev :=
  let st := rd d pgPWR PWR.PWR_STAT_STEPS
  let mark (d : Dev) : Dev := modPwr d fun p => { p with sinceChange := 0 }
  if d.pwr.sinceChange < 5 then d
  else if past then
    if st < 6 then mark (capSteps d (st + 1))
    else
      match shedPick d fun _ => true with
      | some n => mark (capShed d n)
      | none => d
  else if d.pwr.underRun < 10 then d
  else
    match d.pwr.shedCap.getLast? with
    | some n => mark (capRestore d n)
    | none => if st = 0 then d else mark (capSteps d (st - 1))

/-- The comparison of each second: mean power in 0.1 W, voltage in 10 mV. -/
def capCompare (d : Dev) (power volt : Nat) : Dev :=
  let cap := rd d pgPWR PWR.PWR_CAP_CAP
  let d := wr (wr d pgPWR PWR.PWR_IN_POWER power) pgPWR PWR.PWR_IN_VOLTAGE volt
  let d := wrB d pgPWR PWR.PWR_STAT_ACTIVE (decide (cap ≠ 0))
  if cap = 0 then
    let d := wr d pgPWR PWR.PWR_STAT_OVER 0
    let d := forEach d.pwr.shedCap.reverse (fun n d => capRestore d n) d
    let d := modPwr d fun p => { p with sinceChange := 5, underRun := 0 }
    if rd d pgPWR PWR.PWR_STAT_STEPS = 0 then d else capSteps d 0
  else
    let past := decide (10 * cap < power)
    let d := wrB d pgPWR PWR.PWR_STAT_OVER past
    let d := modPwr d fun p =>
      { p with sinceChange := min 5 (p.sinceChange + 1),
               underRun := if power + 100 ≤ 10 * cap then min 10 (p.underRun + 1) else 0 }
    capChange d past

/-! The hold-up store (R341) -/

/-- The usable energy is measured, in mJ. -/
def holdMeasure (d : Dev) (mj : Nat) : Dev :=
  let worn := decide (mj < 1500)
  let was := rdB d pgPWR PWR.HOLD_STAT_WORN
  let d := wrB (wr d pgPWR PWR.HOLD_STAT_ENERGY mj) pgPWR PWR.HOLD_STAT_WORN worn
  let d := if worn = was then d else raise d pgPWR 3
  if worn then tallyPage (corrected d 162 true) pgPWR 3 else if was then endCause d 162 else d

/-! Sensors (R344 to R347) -/

/-- The temperature in 0.1 °C of an NTC input by its raw code c, so that R ÷ 10 kΩ = c ÷ (16,384 − c) (R345): the kelvins are
298.15 × 3,435 ÷ (3,435 + 298.15 × ln(R ÷ 10 kΩ)). -/
def ntcTenths (code : Nat) : Int :=
  let den := 343500 * 2 ^ 64 + 29815 * lnRatio code (16384 - code)
  quot (20 * 29815 * 3435 * 2 ^ 64 - 5463 * den) (2 * den).toNat

/-- An XT input's reading from its latest code, 0.125 mV a code: none outside its window (R345, R346). -/
def xtReading (d : Dev) (i : Nat) : Option Int :=
  let code := tget (fun _ => 0) d.mon.xt (i - 10)
  if rdB d pgTHM (THM.SNS_TYPE i) then (if 80 ≤ code ∧ code ≤ 16000 then some (ntcTenths code) else none)
  else if 1600 ≤ code ∧ code ≤ 7200 then some (250 + quot (5 * (4800 - (code : Int))) 8) else none

/-- The raw reading and the filter (R346). -/
def snsFilter (d : Dev) (i : Nat) (x : Option Int) : Dev :=
  let s := sensorOf d i
  match x with
  | none =>
    let d := modSensor d i fun s => { s with raw := [], filt := sentinel, validRun := 0 }
    if snsFailed d i then d
    else raiseTally (corrected (wr d pgTHM (THM.SNS_FAILED i) 1) (163 + i) true) pgTHM 0
  | some t =>
    let l := (t :: s.raw).take 10
    let run := min 10 (s.validRun + 1)
    let mean := quot (l.foldl (· + ·) 0) l.length
    if snsFailed d i then
      if run < 10 then modSensor d i fun s => { s with raw := l, validRun := run }
      else
        raiseTally (endCause (wr (modSensor d i fun s => { s with raw := l, validRun := run, filt := mean })
          pgTHM (THM.SNS_FAILED i) 0) (163 + i)) pgTHM 0
    else modSensor d i fun s => { s with raw := l, validRun := run, filt := mean }

/-- The reading a sensor shows: its own, or its substitute's plus SUB_OFFS (R352). -/
def snsReading (d : Dev) (i : Nat) : Int :=
  if snsMapped d i then (sensorOf d (substOf i)).filt + rdS d pgTHM (THM.ZONE_SUB_OFFS (zoneOf i)) else (sensorOf d i).filt

/-- A sentinel stands as the sensor's reading. -/
def snsBad (d : Dev) (i : Nat) : Bool := snsFailed d i && ! snsMapped d i

/-- Target steps of a reading (R347). -/
def stepTarget (thr t : Int) : Nat := if t ≤ thr then 0 else min 6 ((t - thr + 29) / 30).toNat

/-- The count of a sensor after a reading (R347, R348). -/
def snsCount (d : Dev) (i : Nat) : Dev :=
  let c := snsSteps d i
  let t := snsReading d i
  let thr := snsThrOf d i
  let s := sensorOf d i
  let set (k : Nat) : Dev := wr (modSensor d i fun s => { s with dwell := 0 }) pgTHM (THM.SNS_STEPS i) k
  let age : Dev := modSensor d i fun s => { s with dwell := min 50 (s.dwell + 1) }
  if snsClass d i = 0 then wr age pgTHM (THM.SNS_STEPS i) 0
  else if snsBad d i then (if c = 6 then age else set 6)
  else if s.dwell + 1 < 50 then age
  else if c < stepTarget thr t then set (c + 1)
  else if 0 < c ∧ t ≤ thr + 30 * ((c : Int) - 1) - 40 ∧ s.shed = [] then set (c - 1)
  else age

/-- Zone steps and the XT steps follow the counts. -/
def stepsShown (d : Dev) : Dev :=
  let xt := maxOf ([10, 11, 12, 13].map (snsSteps d))
  let zs := zones8.map fun z => maxOf ((sensorsOf z).map (snsSteps d))
  let chg := decide (rd d pgTHM THM.THM_STAT_XT_STEPS ≠ xt)
    || zones8.any fun z => decide (rd d pgTHM (THM.ZONE_STEPS z) ≠ zs.getD z 0)
  let d := forEach zones8 (fun z d => wr d pgTHM (THM.ZONE_STEPS z) (zs.getD z 0)) (wr d pgTHM THM.THM_STAT_XT_STEPS xt)
  thermApply (if chg then raise d pgTHM 2 else d)

/-- A shut zone cools (R350): COOL_LEFT counts its 60 s, which a warm reading restarts. -/
def zoneCool (z : Nat) (d : Dev) : Dev :=
  if zoneShut d z then
    let ok := (sensorsOf z).all fun i => decide (snsReading d i ≤ snsShutOf d i - 150)
    let k := if ok then min 600 (tget (fun _ => 0) d.pwr.cool z + 1) else 0
    wr (modPwr d fun p => { p with cool := tset (fun _ => 0) p.cool z k }) pgTHM (THM.ZONE_COOL_LEFT z) (60 - k / 10)
  else d

/-- Every 100 ms: raw readings of the internal sensors in 0.1 °C, none outside their window. -/
def sensorRead (d : Dev) (raw : List (Option Int)) : Dev :=
  let d := forEach sensors14 (fun i d => snsFilter d i (if i < 10 then (raw.getD i none) else xtReading d i)) d
  let d := forEach sensors14 (fun i d => snsCount (wrS d pgTHM (THM.SNS_TEMP i) (snsReading d i)) i) d
  forEach zones8 zoneCool (stepsShown d)

/-- Every 5 s (R348). -/
def thermalShed (d : Dev) (i : Nat) : Dev :=
  let t := snsReading d i
  if snsClass d i = 0 ∨ snsBad d i then d
  else if snsSteps d i = 6 ∧ snsThrOf d i + 180 < t then
    match shedPick d fun n => decide (4 ≤ i) || hasOut d n i with
    | some n => snsShed d i n
    | none => d
  else if t ≤ snsThrOf d i + 140 then
    match (sensorOf d i).shed.getLast? with
    | some n => snsRestore d i n
    | none => d
  else d

/-! Zones (R349, R350) -/

/-- The comparator of sensor i trips on a reading (R349, R351). -/
def zoneTrip (d : Dev) (i : Nat) (t : Int) : Dev :=
  let z := zoneOf i
  if t ≤ snsShutOf d i ∨ zoneShut d z then d
  else
    let old := d
    let d := wr (wr d pgTHM (THM.ZONE_SHUT z) 1) pgTHM (THM.ZONE_COOL_LEFT z) 60
    let d := modPwr d fun p => { p with cool := tset (fun _ => 0) p.cool z 0 }
    let d := raiseTally d pgTHM 1
    let d := forEach ports4 (fun p d => if portShut d p && ! portShut old p then branchDropped p d else d) d
    txGoAll (if z = 6 then dcfCutAll d else d)

/-- A zone restarts after its 60 s. -/
def zoneRestart (d : Dev) (z : Nat) : Dev :=
  if ¬ zoneShut d z ∨ tget (fun _ => 0) d.pwr.cool z < 600 then d
  else
    let d := raiseTally (wr (wr d pgTHM (THM.ZONE_SHUT z) 0) pgTHM (THM.ZONE_COOL_LEFT z) 0) pgTHM 1
    txGoAll (if z = 6 then dcfStartAll d else d)

/-! Map-out (R352) -/

/-- A held token of an action and argument is used (R459). -/
def useToken (d : Dev) : Dev :=
  wr { d with trust := { d.trust with held := none } } pgTRUST TRUST.TOK_STAT_STATE 10

def mapOut (d : Dev) (i : Nat) : Dev :=
  let ok : Bool := match d.trust.held with
    | some (2, a, _) => decide (a = i)
    | _ => false
  if 9 < i ∨ ¬ ok ∨ snsFailed d (substOf i) ∨ snsMapped d (substOf i) then raise d pgTHM 5
  else raiseTally (wr (useToken d) pgTHM (THM.SNS_MAPPED i) 1) pgTHM 4

def mapRestore (d : Dev) (i : Nat) : Dev :=
  if 9 < i then raise d pgTHM 5
  else
    let d := raiseTally (wr d pgTHM (THM.SNS_MAPPED i) 0) pgTHM 4
    wrS d pgTHM (THM.SNS_TEMP i) (snsReading d i)

end Sys2Proof.Machine
end

