-- ==== Sys2Proof/Machine/Probe.lean ====
section
/-!
DEFINITION. The Cricket probe, isolation estimates, the canceller's updates, depth, credit, guard, and cap source 1
(R185 to R212).
-/

namespace Sys2Proof.Machine

/-! Bursts (R192) -/

def setBurst (d : Dev) (b : Nat) (on : Bool) : Dev :=
  let d := wr d pgPRB PRB.SOUND_STAT_ACTIVE (nbitPut (rd d pgPRB PRB.SOUND_STAT_ACTIVE) b on)
  forEach (d.act.filter fun n => decide (inBranch d n = b)) (fun n d => wrB d (pgSEG n) SEG.PRB_STAT_BURST on) d
def soundStart (d : Dev) (b : Nat) : Dev := if 12 ≤ b then d else setBurst d b true
def soundEnd (d : Dev) (b : Nat) : Dev := if burstOn d b then raise (setBurst d b false) pgPRB 0 else d

/-! Estimates (R194 to R198) -/

/-- A canceller event: INT_RAW bit and item (Table 7.13, Table 14.6). -/
def cancEvent (d : Dev) (n bit : Nat) : Dev :=
  putItem (raise d (pgSEG n) bit) (qSeg n 4) 0x21 1 [(bit, 16), (rd d (pgSEG n) SEG.CANC_STAT_CREDIT, 16)]

/-- An estimate's length in segment samples: INT_TIME, rounded up to whole cover cycles (R194). -/
def estLen (d : Dev) (n : Nat) : Nat :=
  let c := coverLen d n
  (rd d (pgSEG n) SEG.ISO_TIME_INT_TIME * 1920 * 2 ^ rd d (pgSEG n) SEG.PATH_CFG_RATE + c - 1) / c * c

/-- The estimate has run its whole length by the end of this loop period. -/
def estDone (d : Dev) (n : Nat) : Bool :=
  decide ((isoRt d n).began + estLen d n ≤ (isoRt d n).phase + perSamples d n)

/-- The next estimate follows without a gap. -/
def estNext (d : Dev) (n : Nat) : Dev :=
  modIso d n fun i => { i with began := (i.phase + perSamples d n) / coverLen d n * coverLen d n, added := [] }

/-- The couplings of the own branches (R195). -/
def setCouples (d : Dev) (n : Nat) (own : List (Nat × Int × Bool)) : Dev :=
  (List.range 12).foldl (fun d b =>
    match own.find? fun o => decide (o.1 = b) with
    | some (_, c, det) =>
      wr (wrB (wrS d (pgSEG n) (SEG.COUPLE_C b) (min 2800 (nearC c))) (pgSEG n) (SEG.COUPLE_BOUND b)
        (! det || decide (14000 < c))) (pgSEG n) (SEG.COUPLE_VALID b) 1
    | none => wr d (pgSEG n) (SEG.COUPLE_VALID b) 0) d

/-- LAST_GOOD after an estimate (R198). -/
def lastGood (d : Dev) (n : Nat) (iso : Int) (bound : Bool) : Dev :=
  let p := pgSEG n
  if ¬ bound ∨ ¬ rdB d p SEG.ISO_STAT_LG_SET ∨ rdS d p SEG.ISO_AUX_LAST_GOOD < iso then
    wr (wrS d p SEG.ISO_AUX_LAST_GOOD iso) p SEG.ISO_STAT_LG_SET 1
  else d

/-- The candidate of R205. -/
def candidate (depth snr : Int) : Int := max 0 (min 600 (min (depth - 60) (snr - 240)))

/-- ISO_STAT bits 4 to 0. -/
def isoBits (d : Dev) (n : Nat) : Nat := (reg d (pgSEG n) 0x81C).toNat % 32

/-- The latch at which something that ends now takes effect: the first at least 1.00 ms later (R202, R206). -/
def dueLatch (d : Dev) : Nat := d.devLoop + 33

/-- What the estimate prepares for the latch of R202. One that leaves an added branch out moves no credit (R205). The window
moves in ADAPT alone, since a move loads the taps (DEDUCED from Table 7.3, log entry 38). -/
def nextUpd (d : Dev) (n : Nat) (x : Estimate) (bound whole : Bool) (depth : Int) : IsoUpd × Nat :=
  let mode := rd d (pgSEG n) SEG.CANC_CFG_MODE
  let cand := if whole then some (if bound ∨ mode = 0 then 0 else candidate depth x.snr) else none
  let taps := if mode = 1 ∧ ¬ bound then some (x.taps, x.exp) else none
  let k := if bound then (isoRt d n).better
           else if rdB d (pgSEG n) SEG.CANC_CFG_BULK_AUTO ∧ mode = 1 ∧ x.better.isSome then (isoRt d n).better + 1 else 0
  let u : IsoUpd := ⟨dueLatch d, cand, taps, none⟩
  match x.better with
  | some (bulk, w, e, dep) =>
    if 2 ≤ k ∧ ¬ bound ∧ bulk ≤ rd d (pgSEG n) SEG.CANC_BULK_LIMIT then
      ({ u with taps := some (w, e), move := some (bulk, candidate (min dep x.snr) x.snr) }, 0)
    else (u, k)
  | none => (u, k)

/-- The own branches an estimate measured: those the segment has and had from its beginning (R194, Table 7.4). -/
def ownOf (d : Dev) (n : Nat) (x : Estimate) : List (Nat × Int × Bool) :=
  x.own.filter fun o => hasOut d n o.1 && ! (isoRt d n).added.contains o.1
/-- Some own branch sent no probe chip, or nothing was measured (R194). -/
def estLost (d : Dev) (n : Nat) (x : Estimate) : Bool :=
  x.lost || (ownOf d n x).isEmpty
    || (outs d n).any fun b => ! (isoRt d n).added.contains b && ! (ownOf d n x).any fun o => decide (o.1 = b)

/-- Some other active segment of the carrier group puts its probe into the same direction: the cross branches (R194). -/
def crossAny (d : Dev) (n : Nat) : Bool :=
  d.act.any fun m => decide (m ≠ n) && decide ((defOf d m).group = (defOf d n).group)
    && decide ((defOf d m).uplink = (defOf d n).uplink)

/-- An estimate completes (R195 to R198, R204, R205). One that has not run its length cannot: it was discarded. -/
def isoDone (d : Dev) (n : Nat) (x : Estimate) : Dev :=
  if ¬ isActive d n ∨ ¬ estDone d n then d
  else if estLost d n x then estNext d n
  else
    let i := isoRt d n
    let p := pgSEG n
    let own := ownOf d n x
    let sum := - psumC (own.map fun o => - o.2.1)
    let iso := min 2800 sum
    let bound := (own.all fun o => ! o.2.2) || decide (2800 < sum)
    let isoX := if x.cross = [] ∨ ¬ crossAny d n then 2800 else min 2800 (- psumC (x.cross.map fun c => - c))
    let depth := min x.depth x.snr
    let d := setCouples d n own
    let d := wrS (wrS d p SEG.ISO_STAT_ISO iso) p SEG.ISO_AUX_ISO_X isoX
    let d := wr (wrB d p SEG.ISO_STAT_BOUND bound) p SEG.ISO_STAT_GUARD 0
    let d := wrS d p SEG.ISO_AGE_SNR_H x.snr
    let d := wrS d p SEG.CANC_STAT_DEPTH (if bound then -32768 else depth)
    let d := lastGood (wr d p SEG.ISO_STAT_SEQ ((i.seq + 1) % 256)) n iso bound
    let u := nextUpd d n x bound i.added.isEmpty depth
    let d := modIso (estNext d n) n fun i =>
      { i with seq := (i.seq + 1) % 65536, eH := x.eH, prev := some iso, time := some d.devLoop,
               upd := some u.1, better := u.2,
               ir := (((i.seq + 1) % 65536, x.irRef, x.ir) :: i.ir).take 16 }
    let d := if i.added = [] then setValid d n true else d
    let d := raise d p 8
    let d := match i.prev with
      | some o => if 120 < iso - o ∨ 120 < o - iso then tallyPage d p 8 else d
      | none => d
    checkService (putItem d (qSeg n 3) 0x20 2
      [(u16 iso, 16), (u16 isoX, 16), (rd d p SEG.CANC_STAT_CREDIT, 16), (rd d p SEG.CANC_STAT_DEPTH, 16), (u16 x.snr, 16),
       ((isoRt d n).seq, 16), (isoBits d n, 16)])

/-- VALID lapses at MAXAGE (R197, R205). -/
def isoLapse (d : Dev) (n : Nat) : Dev :=
  if ¬ rdB d (pgSEG n) SEG.ISO_STAT_VALID then d
  else modIso (setCredit (setValid d n false) n 0) n fun i => { i with cPrev := 0 }

/-! The canceller's update (R202, R203, R205) -/

/-- A tap of the engine's, brought from one scale to another: amplitude v ÷ 32,768 × 2^−EXP (R199). -/
def rescale (v : Int) (old new : Nat) : Int :=
  if old ≤ new then v * (2 ^ (new - old) : Nat) else quot v (2 ^ (old - new))

/-- W + 2^−MU × (H_win − W) on one component. -/
def tapStep (mu : Nat) (w h : Int) : Int := clamp16 (w + quot (h - w) (2 ^ mu))

def tapW (d : Dev) (n k : Nat) : Int × Int := (rdS d (pgSEG n) (SEG.CANC_W_I k), rdS d (pgSEG n) (SEG.CANC_W_Q k))

def setTaps (d : Dev) (n : Nat) (w : Nat → Int × Int) (exp : Nat) : Dev :=
  (List.range 128).foldl (fun d k =>
      wrS (wrS d (pgSEG n) (SEG.CANC_W_I k) (w k).1) (pgSEG n) (SEG.CANC_W_Q k) (w k).2)
    (wr d (pgSEG n) SEG.CANC_NOW_EXP_NOW exp)

/-- The credit an update gives: R205 for an estimate that moves it, the candidate against the loaded taps at a move (R203). -/
def updCredit (d : Dev) (n : Nat) (u : IsoUpd) : Int :=
  let credit := rdS d (pgSEG n) SEG.CANC_STAT_CREDIT
  let c := match u.cand with
    | some c => min c (min (isoRt d n).cPrev (credit + rd d (pgSEG n) SEG.ISO_CFG_CREDIT_UP))
    | none => credit
  match u.move with
  | some m => min c m.2
  | none => c

/-- The taps an update brings (R202, R203). -/
def updTaps (d : Dev) (n : Nat) (u : IsoUpd) : Dev :=
  let p := pgSEG n
  match u.move, u.taps with
  | some m, some (w, e) =>
    bump (wr (setTaps d n (fun k => w.getD k (0, 0)) e) p SEG.CANC_NOW_BULK_NOW m.1) p SEG.CANC_CNT_MOVES
  | none, some (w, e) =>
    let mu := rd d p SEG.CANC_CFG_MU
    let old := rd d p SEG.CANC_NOW_EXP_NOW
    setTaps d n (fun k =>
      let h := w.getD k (0, 0)
      let o := tapW d n k
      (tapStep mu (rescale o.1 old e) h.1, tapStep mu (rescale o.2 old e) h.2)) e
  | _, none => d

/-- The update at its latch; a move is a CANC_EVENT with INT_RAW bit 12. -/
def cancApply (d : Dev) (n : Nat) : Dev :=
  match (isoRt d n).upd with
  | none => d
  | some u =>
    let c := updCredit d n u
    let d := modIso d n fun i => { i with upd := none, cPrev := u.cand.getD i.cPrev }
    let d := setCredit (updTaps d n u) n c
    if u.move.isSome then cancEvent d n 12 else d

/-! The guard (R206) -/

/-- Condition (a): (E_Rs − E_Ns) × 10^((CREDIT − 6 dB) ÷ 10) > E_H and E_Rs > 4 E_Ns, with CREDIT above 0. -/
def guardA (credit : Int) (eH eRs eNs : Nat) : Bool :=
  decide (0 < credit ∧ 4 * eNs < eRs)
    && decide (eH ^ 200 * 10 ^ (120 - credit).toNat < (eRs - eNs) ^ 200 * 10 ^ (credit - 120).toNat)
/-- Condition (b). -/
def guardB (eH eHs eNs : Nat) : Bool := decide (4 * eH + eNs < eHs ∧ 4 * eNs < eHs)

/-- A guard window ends: its energies, and the isolation computed from E_Hs − E_Ns. -/
def guardEnd (d : Dev) (n eHs eRs eNs : Nat) (iso : Int) : Dev :=
  let i := isoRt d n
  if ¬ isActive d n ∨ i.time.isNone then d
  else if guardA (rdS d (pgSEG n) SEG.CANC_STAT_CREDIT) i.eH eRs eNs ∨ guardB i.eH eHs eNs then
    modIso d n fun i => { i with guard := some (dueLatch d, iso - 20) }
  else d

/-- What is due at the latch of this period. -/
def updDue (d : Dev) (n : Nat) : Bool := (isoRt d n).upd.any fun u => decide (u.due ≤ d.devLoop)
def guardDue (d : Dev) (n : Nat) : Bool := (isoRt d n).guard.any fun g => decide (g.1 ≤ d.devLoop)

/-- The failure takes effect; an estimate due at the same latch goes first (R207). -/
def guardApply (d : Dev) (n : Nat) : Dev :=
  match (isoRt d n).guard with
  | none => d
  | some (_, v) =>
    let p := pgSEG n
    let d := if updDue d n then cancApply d n else d
    let d := modIso d n fun i => { i with guard := none, cPrev := 0 }
    let d := wr (wrS d p SEG.ISO_STAT_ISO (min (rdS d p SEG.ISO_STAT_ISO) v)) p SEG.ISO_STAT_GUARD 1
    let d := setCredit (bump d p SEG.CANC_CNT_GUARD_FAILS) n 0
    tallyPage (cancEvent d n 10) p 10

/-- Phase 0.00 µs of a segment: the code phase runs on (R188), and what is due takes effect, the estimate first (R207). -/
def isoDue (n : Nat) (d : Dev) : Dev :=
  let d := modIso d n fun i => { i with phase := i.phase + perSamples d n }
  let d := modPath d n fun x => { x with since := 0 }
  let d := if updDue d n then cancApply d n else d
  if guardDue d n then guardApply d n else d

/-! Cap source 1 (R208) -/

/-- The cautious value and its basis. -/
def cautious (d : Dev) (n : Nat) : Int × Nat :=
  let p := pgSEG n
  if rdB d p SEG.ISO_STAT_LG_SET then (rdS d p SEG.ISO_AUX_LAST_GOOD - rdS d p SEG.CAUT_CFG_DROP, 3)
  else (rdS d p SEG.CAUT_CFG_FIRST, 4)

/-- The isolation cap and its basis. -/
def isoCap (d : Dev) (n : Nat) : Int × Nat :=
  let p := pgSEG n
  let iso := rdS d p SEG.ISO_STAT_ISO
  let isoX := rdS d p SEG.ISO_AUX_ISO_X
  let margin := rdS d p SEG.ISO_CFG_MARGIN
  let r : Int × Nat :=
    if ¬ rdB d p SEG.ISO_STAT_VALID then cautious d n
    else if rdB d p SEG.ISO_STAT_GUARD then (min iso isoX - margin, 1)
    else if rdB d p SEG.ISO_STAT_BOUND then (max (min iso isoX - margin) (cautious d n).1, 2)
    else (min (iso + rdS d p SEG.CANC_STAT_CREDIT) isoX - margin, 0)
  (min 2200 r.1, r.2)

/-- CAP_ISO at a latch; a change of BASIS is INT_RAW bit 13. -/
def setIsoCap (n : Nat) (d : Dev) : Dev :=
  let c := isoCap d n
  let was := rd d (pgSEG n) SEG.CAP_ISO_BASIS
  let d := wr (wrS d (pgSEG n) SEG.CAP_ISO_CAP c.1) (pgSEG n) SEG.CAP_ISO_BASIS c.2
  if c.2 = was then d else cancEvent d n 13

/-! Identity and impulse responses -/

/-- NODE_ID is written (R210). -/
def nodeWrite (d : Dev) (v : Nat) : Dev :=
  if d.act = [] ∧ idOk v then wr d pgPRB PRB.NODE_NODE_ID v else setError d pgPRB 0x40

/-- IR_DATA is read: IDX increments, wrapping at 512 (R196). -/
def irRead (d : Dev) (n : Nat) : Dev :=
  wr d (pgSEG n) SEG.IR_IDX_IDX ((rd d (pgSEG n) SEG.IR_IDX_IDX + 1) % 512)

end Sys2Proof.Machine
end

