-- ==== Sys2Proof/Machine/Loop.lean ====
section
/-!
DEFINITION. The gain control engine: the control law in exact arithmetic, set selection, holds, set-points, the
following error, dither, trace, and the three phases of a loop period for the contexts (R20 to R23, R146 to R183).
-/

namespace Sys2Proof.Machine

/-! The control law (R150): values in units of 2^-16 of a level unit -/

/-- A level unit. -/
def one : Int := 65536

/-- A coefficient of `s` fractional bits times a value, rounded to the nearest, ties towards +∞. -/
def prod (c s : Nat) (x : Int) : Int := ((c : Int) * x + (2 ^ (s - 1) : Nat)) / (2 ^ s : Nat)

/-- To the nearest whole level unit, ties towards +∞. -/
def toUnit (x : Int) : Int := (x + 32768) / 65536

/-- The terms of a period from one coefficient set. -/
structure Terms where
  e : Int
  yf1 : Int
  d : Int
  ff : Int
  p : Int
  di : Int
deriving DecidableEq, Repr

def termsOf (c : Coefs) (yf spe out inn : Int) : Terms :=
  let e := spe - out
  let yf1 := yf + prod c.alpha 16 (out - yf)
  { e := e, yf1 := yf1, d := prod c.kd 8 (yf - yf1), ff := prod c.wff 15 (spe - inn), p := prod c.kp 12 e,
    di := prod c.ki 16 e }

/-- Floor, slew, cap and rounding (R150, R23, R155): `g` is the present gain in level units. -/
def limitGain (u g cap floor : Int) (up dn : Nat) : Int :=
  let x := max u (floor * one)
  let dl := x - g * one
  let dl := if up ≠ 0 then min dl (up * one) else dl
  let dl := if dn ≠ 0 then max dl (-(dn * one)) else dl
  toUnit (min (g * one + dl) (cap * one))

/-- Integration of a period without a swap (R150, R151): u and i. -/
def integrate (t : Terms) (i cap lo : Int) : Int × Int :=
  let u := t.ff + t.p + (i + t.di) + t.d
  if (cap * one < u ∧ 0 < t.di) ∨ (u < lo * one ∧ t.di < 0) then (t.ff + t.p + i + t.d, i) else (u, i + t.di)

/-- The integrator's preset in a swap (R161): the old output, or the limit it lies beyond. -/
def swapTo (told : Terms) (i cap lo : Int) : Int :=
  let u := told.ff + told.p + (i + told.di) + told.d
  if cap * one < u then cap * one else if u < lo * one then lo * one else u

/-- The set-point ramp (R167). -/
def rampSp (spr target : Int) (rate : Nat) : Int :=
  if rate = 0 then target * one else spr + max (-(rate * one)) (min (rate * one) (target * one - spr))

/-- The least source and its lowest code (R20). -/
def capOf (srcs : List Int) : Int × Nat :=
  (List.range 6).foldl (fun (m : Int × Nat) i => if srcs.getD i 2200 < m.1 then (srcs.getD i 2200, i) else m)
    (srcs.getD 0 2200, 0)

/-- The region of a level (R157); without a region before, from the thresholds alone (R172). -/
def nextRegion (c : LoopCfg) (inL : Int) : Option Nat → Nat
  | none => b2n (decide (c.th1 ≤ inL)) + b2n (decide (c.th2 ≤ inL)) + b2n (decide (c.th3 < inL))
  | some r =>
    let th (k : Nat) : Int := if k = 1 then c.th1 else if k = 2 then c.th2 else c.th3
    if r < 3 ∧ c.th3 + c.hyst < inL then 3
    else if r < 2 ∧ th 2 + c.hyst < inL then 2
    else if r < 1 ∧ th 1 + c.hyst < inL then 1
    else if 0 < r ∧ inL < th 1 - c.hyst then 0
    else if 1 < r ∧ inL < th 2 - c.hyst then 1
    else if 2 < r ∧ inL < th 3 - c.hyst then 2
    else r

/-- The class of a margin (R158): true is tight; `fresh` leaves the hysteresis out (R172). -/
def nextTight (c : LoopCfg) (m : Int) (fresh was : Bool) : Bool :=
  if m < c.mTh then true else if fresh || decide ((c.mTh + c.mHyst : Nat) < m) then false else was

/-- A source of the set-point: the target, G_dl + TRACK_OFFS, whether the source is valid, and SP_IN (R165, R166). -/
structure SpRead where
  target : Int
  dl : Int
  ok : Bool
  shown : Nat × Nat
deriving DecidableEq, Repr

/-- The target from x = num ÷ den, to the nearest level unit as the worked example of R165 shows (DEDUCED, log entry 69). -/
def spMap (c : LoopCfg) (num : Int) (den : Nat) : Int := c.spLo + nearest ((c.spHi - c.spLo) * num) den

def spRead (x : Latched) (k : Ctx) : SpRead :=
  let c := x.cfg
  let kept : SpRead := ⟨k.target, k.dlHold, false, k.res.spIn⟩
  let ain (v : Option Int) : SpRead :=
    match v with
    | some v => ⟨spMap c (v + 8192) 16384, k.dlHold, true, (u16 (nearest (v * 5000) 16384), 0)⟩
    | none => kept
  if c.spSrc = 0 then ⟨c.sp, k.dlHold, true, (0, 0)⟩
  else if c.spSrc = 1 then ain x.ain0
  else if c.spSrc = 2 then ain x.ain1
  else if c.spSrc = 3 then
    match x.pwm with
    | some (duty, us) =>
      if 100 ≤ us ∧ us ≤ 10000 then ⟨spMap c duty 10000, k.dlHold, true, (duty, us)⟩ else { kept with shown := (duty, us) }
    | none => kept
  else if c.spSrc = 4 then
    match x.dl with
    | some g => ⟨x.inL + (g + c.offs), g + c.offs, true, (0, 0)⟩
    | none => ⟨x.inL + k.dlHold, k.dlHold, false, (0, 0)⟩
  else kept

/-- What the law of a period gives: the new gain, integrator, filter, ramp and terms. -/
structure Step1 where
  gain : Int
  integ : Int
  yf : Int
  spr : Int
  spe : Int
  e : Int
  ff : Int
  p : Int
  d : Int
  u : Int
  swapped : Bool
  moved : Bool
  copied : Bool
deriving DecidableEq, Repr

/-- AUTO, no transfer (R150, R161). -/
def stepAuto (x : Latched) (k : Ctx) (cf : Coefs) (cap target : Int) : Step1 :=
  let c := x.cfg
  let out := x.outL * one
  let inn := x.inL * one
  let lo : Int := min (c.floor : Int) cap
  let yf := k.yf.getD out
  let spr := rampSp k.spr target c.rate
  let spe := spr + x.dith * one
  let t := termsOf cf yf spe out inn
  match (match k.used with | some o => if o = cf then none else some o | none => none) with
  | some o =>
    let i := swapTo (termsOf o yf spe out inn) k.integ cap lo - t.ff - t.p - t.d
    let u := t.ff + t.p + i + t.d
    ⟨limitGain u k.gain cap c.floor c.up c.dn, i, t.yf1, spr, spe, t.e, t.ff, t.p, t.d, u, true, false, false⟩
  | none =>
    let r := integrate t k.integ cap lo
    ⟨limitGain r.1 k.gain cap c.floor c.up c.dn, r.2, t.yf1, spr, spe, t.e, t.ff, t.p, t.d, r.1, false, false, false⟩

/-- A MANUAL to AUTO transfer (R164, R172). -/
def stepToAuto (x : Latched) (k : Ctx) (cf : Coefs) (cap : Int) : Step1 :=
  let out := x.outL * one
  let spe := out + x.dith * one
  let t := termsOf cf out spe out (x.inL * one)
  ⟨min k.gain cap, k.gain * one - t.ff - t.p - t.d, t.yf1, out, spe, t.e, t.ff, t.p, t.d, k.gain * one, false, true, false⟩

/-- MANUAL (R163), with a transfer from AUTO (R164). -/
def stepManual (x : Latched) (k : Ctx) (cap : Int) : Step1 :=
  let c := x.cfg
  let out := x.outL * one
  let yf := match k.yf, k.used with
    | some y, some o => y + prod o.alpha 16 (out - y)
    | _, _ => out
  let copy := k.auto && c.track
  let u := (if copy then k.gain else (c.man : Int)) * one
  let g := if copy then min k.gain cap else limitGain u k.gain cap c.floor c.up c.dn
  ⟨g, k.integ, yf, out, out, 0, 0, 0, 0, u, false, k.auto, copy⟩

/-- The following error after a period that is not held (R173): count, recorded gain and OUT, ACTIVE, RISE, and whether
the fault is raised. -/
structure FeNext where
  count : Nat
  gain : Int
  out : Int
  active : Bool
  rise : Bool
  fault : Bool
deriving DecidableEq, Repr

def feStep (x : Latched) (k : Ctx) (s : Step1) (satHi satLo : Bool) : FeNext :=
  let c := x.cfg
  let err := s.spe - x.outL * one
  let keep : FeNext := ⟨k.feCount, k.feGain, k.feOut, k.feActive, k.feRise, false⟩
  if ¬ c.auto ∨ ¬ c.feEn then { keep with count := 0, active := false }
  else if err ≤ c.feLimit * one ∧ -(c.feLimit * one) ≤ err then { keep with count := 0, active := false }
  else if (satHi ∧ 0 < err) ∨ (satLo ∧ err < 0) then keep
  else
    let n := satAdd 16 k.feCount 1
    let g0 := if k.feCount = 0 then s.gain else k.feGain
    let o0 := if k.feCount = 0 then x.outL else k.feOut
    if c.feTime ≤ n ∧ ¬ k.feActive then
      ⟨n, g0, o0, true, decide (g0 < s.gain) && decide (o0 < x.outL), true⟩
    else ⟨n, g0, o0, k.feActive, k.feRise, false⟩

/-- A bit as an event. -/
def evIf (b : Bool) (bit : Nat) : List Nat := if b then [bit] else []

/-- A held period (R168, R169, R152). -/
def evalHeld (x : Latched) (k : Ctx) (cap : Int) (src : Nat) : Ctx :=
  let g := if cap < 0 then 0 else min k.gain cap
  { k with
    gain := g, yf := none, cur := none, due := true,
    res := { k.res with
      run := false, gain := g, cap := cap, src := src, srcs := x.srcs, hold := x.hold, inL := x.inL, outL := x.outL,
      pend := decide (x.cfg.auto ≠ k.auto), swapped := false, faulted := false, copy := none,
      events := evIf (decide (src ≠ k.res.src)) 4 ++ evIf (decide (k.res.hold = 0)) 7 } }

/-- A period that is not held. -/
def evalRun (x : Latched) (k : Ctx) (cap : Int) (src : Nat) : Ctx :=
  let c := x.cfg
  let sp := spRead x k
  let region := nextRegion c x.inL k.region
  let tight := nextTight c (x.srcs.getD 1 2200 - k.gain) k.region.isNone k.tight
  let set := 2 * region + b2n tight
  let cf := c.sets.getD set ⟨0, 0, 0, 0, 0⟩
  let s := if c.auto then (if k.auto then stepAuto x k cf cap sp.target else stepToAuto x k cf cap) else stepManual x k cap
  let satHi := decide (cap * one < s.u)
  let satLo := decide (s.u < min (c.floor : Int) cap * one)
  let fe := feStep x k s satHi satLo
  { gain := s.gain, integ := s.integ, yf := some s.yf, spr := s.spr, region := some region, tight := tight,
    used := if c.auto then some cf else k.used, auto := c.auto, target := sp.target, dlHold := sp.dl,
    spFault := ! sp.ok, feCount := fe.count, feGain := fe.gain, feOut := fe.out, feActive := fe.active, feRise := fe.rise,
    cur := none, due := true,
    res :=
      { run := true, gain := s.gain, cap := cap, src := src, srcs := x.srcs, hold := 0, set := set, target := sp.target,
        spe := s.spe, inL := x.inL, outL := x.outL, e := s.e, ff := s.ff, p := s.p, d := s.d, u := s.u, satHi := satHi,
        satLo := satLo, pend := false, spIn := sp.shown, swapped := s.swapped, faulted := fe.fault,
        events := evIf fe.fault 2 ++ evIf (! sp.ok && ! k.spFault) 3 ++ evIf (decide (src ≠ k.res.src)) 4
          ++ evIf s.swapped 5 ++ evIf s.moved 6,
        copy := if s.copied then some k.gain else none } }

/-- The evaluation of one context (R150). -/
def evalCtx (x : Latched) (k : Ctx) : Ctx :=
  let c := capOf x.srcs
  let x := { x with hold := nbitPut x.hold 6 (decide (c.1 < 0)) }
  if x.hold = 0 then evalRun x k c.1 c.2 else evalHeld x k c.1 c.2

/-! The latch (R22, R146, R148) -/

def coefsOf (d : Dev) (n s : Nat) : Coefs :=
  let p := pgLOOP n
  ⟨rd d p (LOOP.SET_PK_KP s), rd d p (LOOP.SET_PK_KI s), rd d p (LOOP.SET_DA_KD s), rd d p (LOOP.SET_DA_ALPHA s),
    rd d p (LOOP.SET_FF_W_FF s)⟩

def loopCfg (d : Dev) (n : Nat) : LoopCfg :=
  let p := pgLOOP n
  { auto := rdB d p LOOP.LOOP_CTRL_MODE, track := rdB d p LOOP.LOOP_CTRL_TRACK, feEn := rdB d p LOOP.LOOP_CTRL_FE_EN,
    spSrc := rd d p LOOP.LOOP_CTRL_SP_SRC, sp := rdS d p LOOP.SP_REG_SP, spLo := rdS d p LOOP.SP_MAP_SP_LO,
    spHi := rdS d p LOOP.SP_MAP_SP_HI, offs := rdS d p LOOP.TRACK_CFG_TRACK_OFFS, rate := rd d p LOOP.SP_RATE_RATE,
    man := rd d p LOOP.MAN_GAIN_GAIN, floor := rd d p LOOP.GAIN_LIM_FLOOR, up := rd d p LOOP.SLEW_UP,
    dn := rd d p LOOP.SLEW_DN, th1 := rdS d p LOOP.RGN_A_TH1, th2 := rdS d p LOOP.RGN_A_TH2, th3 := rdS d p LOOP.RGN_B_TH3,
    hyst := rd d p LOOP.RGN_B_HYST, mTh := rd d p LOOP.MARGIN_CFG_TH, mHyst := rd d p LOOP.MARGIN_CFG_HYST,
    feLimit := rd d p LOOP.FE_CFG_LIMIT, feTime := rd d p LOOP.FE_CFG_TIME, sets := (List.range 8).map (coefsOf d n) }

/-- The six cap sources (Table 1.3). Source 2 is the one NPS_NOISE.CAP_NR holds. -/
def capSources (d : Dev) (n : Nat) : List Int :=
  [(rd d (pgLOOP n) LOOP.GAIN_LIM_CFG_MAX : Int), rdS d (pgSEG n) SEG.CAP_ISO_CAP, rdS d (pgNPS n) NPS.NPS_NOISE_CAP_NR,
   neighCap d n, thermCap d n, trimCap d n]

/-- Hold causes but CAP_MUTE (Table 6.7), as bits from 16 on; `gated25`: gating is scheduled for phase 25.00 µs. -/
def holdBits (d : Dev) (n : Nat) (gated25 : Bool) : Nat :=
  let o := outs d n
  let p := pgSEG n
  b2n (! isActive d n)
    + b2n (npMuted d n || (isTdd d n && lostMute d n) || surveyMuted d) * 2
    + b2n (decide (o ≠ []) && o.all (branchOff d)) * 4
    + b2n (decide (o ≠ []) && o.all (branchSilent d)) * 8
    + b2n (isGated d n || gated25) * 16
    + b2n (! (rdB d p SEG.LEVEL_OUT_IN_VALID && rdB d p SEG.LEVEL_OUT_OUT_VALID)) * 32

/-- AIN c as the loops may use it: clean, corrected, in the sequence in the corrected class, within 10 ms (R166). -/
def ainInSeq (d : Dev) (c : Nat) : Bool :=
  (List.range (rd d pgMSEQ MSEQ.SEQ_CFG_LAST + 1)).any fun i =>
    decide (rd d pgMSEQ (MSEQ.SEQ_A_CH0 i) = 12 + c ∧ rd d pgMSEQ (MSEQ.SEQ_B_FMT0 i) = 0)
def ainNow (d : Dev) (c : Nat) : Option Int :=
  match tget (fun _ => none) d.mon.ain c with
  | some (v, t) => if ainInSeq d c ∧ d.devLoop ≤ t + 320 then some v else none
  | none => none

/-- The dither's offset in a period (R174). -/
def dithNow (d : Dev) (n : Nat) : Int :=
  let t := d.trace
  if t.on ∧ t.ctx = n then (if t.ran / (t.half + 1) % 2 = 0 then (t.amp : Int) else -(t.amp : Int)) else 0

/-- What context n latches. -/
def latchOf (d : Dev) (n : Nat) (gated25 : Bool) (pwm : Option (Nat × Nat)) : Latched :=
  let t := rd d (pgLOOP n) LOOP.TRACK_CFG_TRACK_SEG
  { cfg := loopCfg d n, srcs := capSources d n, inL := rdS d (pgSEG n) SEG.LEVEL_IN_IN,
    outL := rdS d (pgSEG n) SEG.LEVEL_OUT_OUT, hold := holdBits d n gated25, ain0 := ainNow d 0, ain1 := ainNow d 1,
    pwm := pwm, dl := if isActive d t ∧ ¬ isUplink d t then some (ctxRt d t).gain else none, dith := dithNow d n }

/-! Dither and trace (R174 to R179) -/

def modTrace (d : Dev) (f : Trace → Trace) : Dev := { d with trace := f d.trace }
def dithRunning (d : Dev) : Bool := decide (rd d pgLGLB LGLB.DITH_STAT_STATE = 1)
def traceState (d : Dev) : Nat := rd d pgLGLB LGLB.TRACE_STAT_STATE

/-- The context of a trace slot. -/
def slotCtx (d : Dev) (s : Nat) : Nat :=
  if s = 0 then rd d pgLGLB LGLB.TRACE_CTX_A_CTX0 else if s = 1 then rd d pgLGLB LGLB.TRACE_CTX_A_CTX1
  else if s = 2 then rd d pgLGLB LGLB.TRACE_CTX_B_CTX2 else rd d pgLGLB LGLB.TRACE_CTX_B_CTX3

/-- An event of LOOP_GLB with its DEBUG_EVENT item for the segment it names (Table 14.4, Table 14.6). -/
def debugEvent (d : Dev) (bit n : Nat) : Dev := putItem (raise d pgLGLB bit) (qSeg n 15) 0x78 1 [(bit, 16), (0, 16)]

/-- The segment a trace event names: the context of the trigger's slot. -/
def trigCtx (d : Dev) : Nat := slotCtx d (rd d pgLGLB LGLB.TRACE_CTRL_TRIG_SLOT)

/-- A dither ends (R175). -/
def dithEnd (d : Dev) (st bit : Nat) : Dev :=
  debugEvent (modTrace (wr d pgLGLB LGLB.DITH_STAT_STATE st) fun t => { t with on := false }) bit d.trace.ctx
def dithAbort (d : Dev) : Dev := if dithRunning d then dithEnd d 3 4 else d

/-- START is written with the other fields of DITH_CTRL (R174, R182). -/
def dithStart (d : Dev) (amp ctx half : Nat) : Dev :=
  if amp = 0 ∨ 10 < amp then setError d pgLGLB 0x70
  else
    let d := wr (wr (wr d pgLGLB LGLB.DITH_CTRL_AMP amp) pgLGLB LGLB.DITH_CTRL_CTX ctx) pgLGLB LGLB.DITH_CTRL_HALF half
    if (d.mode = .service ∨ d.mode = .test ∨ d.mode = .recovery) ∧ ¬ dithRunning d ∧ isActive d ctx ∧ (ctxRt d ctx).auto then
      let d := wr (wr d pgLGLB LGLB.DITH_STAT_STATE 1) pgLGLB LGLB.DITH_STAT_ENTRIES 0
      modTrace d fun t => { t with ctx := ctx, amp := amp, half := half, ran := 0, on := false }
    else setError d pgLGLB 0x70

/-- FIRST: the oldest entry. -/
def traceFirst (t : Trace) : Nat := if 4096 ≤ t.total then t.pos else 0

/-- The trigger: recording continues for 4,096 − PRE further entries (R177). -/
def traceTrigger (d : Dev) : Dev :=
  if traceState d ≠ 1 then d
  else
    let d := modTrace (wr d pgLGLB LGLB.TRACE_STAT_STATE 2) fun t => { t with left := 4096 - rd d pgLGLB LGLB.TRACE_CTRL_PRE }
    debugEvent d 0 (trigCtx d)

/-- ARM is written with the other fields of TRACE_CTRL (R177, R178). -/
def traceArm (d : Dev) (pre slot src : Nat) : Dev :=
  let d := wr (wr (wr d pgLGLB LGLB.TRACE_CTRL_PRE pre) pgLGLB LGLB.TRACE_CTRL_TRIG_SLOT slot) pgLGLB LGLB.TRACE_CTRL_TRIG_SRC src
  if d.mode = .service ∨ d.mode = .safe then setError d pgLGLB 0x68
  else
    let d := modTrace (wr d pgLGLB LGLB.TRACE_STAT_STATE 1) fun t => { t with pos := 0, total := 0, left := 0 }
    if src = 0 then traceTrigger d else d

/-- A change to SERVICE or SAFE stops a trace at the next latch (R178). -/
def traceLatch (d : Dev) : Dev :=
  if (d.mode = .service ∨ d.mode = .safe) ∧ (traceState d = 1 ∨ traceState d = 2) then
    let d := wr (wr d pgLGLB LGLB.TRACE_STAT_STATE 4) pgLGLB LGLB.TRACE_STAT_FIRST (traceFirst d.trace)
    debugEvent d 2 (trigCtx d)
  else d

/-- The trigger's source occurs in a context's result (Table 6.14). -/
def trigHit (src : Nat) (old new : LoopRes) : Bool :=
  if src = 1 then decide (old.src ≠ new.src) else if src = 2 then decide (old.set ≠ new.set)
  else if src = 3 then new.faulted else if src = 4 then new.events.contains 7 else if src = 5 then new.events.contains 6
  else false

/-- A value in 16 bits, rounded to level units. -/
def sh16 (x : Int) : Nat := u16 (toUnit x)

/-- A trace quantity (Table 6.8). -/
def traceQty (d : Dev) (n q : Nat) : Nat :=
  let c := ctxRt d n
  let r := c.res
  if q = 0 then sh16 r.spe else if q = 1 then u16 r.target else if q = 2 then u16 r.outL else if q = 3 then u16 r.inL
  else if q = 4 then sh16 r.e else if q = 5 then sh16 r.ff else if q = 6 then sh16 r.p
  else if q = 7 then u16 (max (-32767) (min 32767 (toUnit c.integ)))
  else if q = 8 then sh16 r.d else if q = 9 then sh16 r.u else if q = 10 then u16 r.gain else if q = 11 then u16 r.cap
  else if q = 12 then
    r.src * 8192 + r.set * 1024 + r.hold * 8 + b2n r.satHi * 4 + b2n r.satLo * 2 + b2n c.feActive
  else 0

/-- Every channel writes its entry at phase 25.00 µs while a trace records (R176, R177). -/
def traceWrite (d : Dev) : Dev :=
  if traceState d ≠ 1 ∧ traceState d ≠ 2 then d
  else
    let lp := d.devLoop % 65536
    let b := (List.range 8).foldl (fun b ch =>
      tset (fun _ => 0) b (4096 * ch + d.trace.pos)
        (traceQty d (slotCtx d (rd d pgLGLB (LGLB.TRACE_CH_SLOT ch))) (rd d pgLGLB (LGLB.TRACE_CH_QTY ch)) * 65536 + lp))
      d.trace.bufs
    let run := decide (traceState d = 2)
    let d := modTrace d fun t =>
      { t with bufs := b, pos := (t.pos + 1) % 4096, total := min 4096 (t.total + 1), left := if run then t.left - 1 else t.left }
    if run ∧ d.trace.left = 0 then
      debugEvent (wr (wr d pgLGLB LGLB.TRACE_STAT_STATE 3) pgLGLB LGLB.TRACE_STAT_FIRST (traceFirst d.trace)) 1 (trigCtx d)
    else d

/-- The response entry of a period (R175). -/
def dithWrite (d : Dev) : Dev :=
  let t := d.trace
  if ¬ dithRunning d ∨ ¬ t.on then d
  else
    let r := (ctxRt d t.ctx).res
    let v := (if r.hold = 0 then u16 r.outL else 0x8000) * 65536 + u16 r.gain
    let d := modTrace d fun t => { t with resp := tset (fun _ => 0) t.resp t.ran v, ran := t.ran + 1 }
    let d := wr d pgLGLB LGLB.DITH_STAT_ENTRIES d.trace.ran
    if d.trace.ran = 1024 then dithEnd d 2 3 else d

/-- BUF_DATA is read: the index increments and wraps (R179). -/
def bufRead (d : Dev) : Dev :=
  let top := if rd d pgLGLB LGLB.BUF_SEL_BUF = 8 then 1024 else 4096
  wr d pgLGLB LGLB.BUF_IDX_IDX ((rd d pgLGLB LGLB.BUF_IDX_IDX + 1) % top)

/-! The phases -/

/-- The contexts that run: those of active and deactivating segments. -/
def latchCtx (gated : List Nat) (pwm : Option (Nat × Nat)) (d0 : Dev) (n : Nat) (d : Dev) : Dev :=
  modCtx d n fun k =>
    { k with cur := some (latchOf d0 n (gated.contains n) pwm), due := false, res := { k.res with copy := none } }

/-- All contexts latch, from one state (R147). -/
def latchAll (d : Dev) (gated : List Nat) (pwm : Option (Nat × Nat)) : Dev :=
  let d := if dithRunning d then modTrace d fun t => { t with on := true } else d
  forEach d.act (latchCtx gated pwm d) d

/-- One context is evaluated: a raised fault with RISE goes to protection; a dither on it ends on a transfer to MANUAL
(R173, R175). -/
def evalOneCtx (n : Nat) (d : Dev) : Dev :=
  match (ctxRt d n).cur with
  | none => d
  | some x =>
    let old := (ctxRt d n).res
    let d := modCtx d n (evalCtx x)
    let k := ctxRt d n
    let d := if k.res.faulted ∧ k.feRise then npRaise d 1 n else d
    let d := if d.trace.ctx = n ∧ ¬ k.auto ∧ dithRunning d then dithAbort d else d
    if n = trigCtx d ∧ trigHit (rd d pgLGLB LGLB.TRACE_CTRL_TRIG_SRC) old k.res then traceTrigger d else d

/-- Phase 2.00 to 12.24 µs: every latched context is evaluated. -/
def evaluateAll (d : Dev) : Dev :=
  if d.written ∨ d.evaluated then d else forEach d.act evalOneCtx { d with evaluated := true }

/-- LOOP_STAT of a context. -/
def loopStat (k : Ctx) : Nat :=
  let r := k.res
  r.src * 268435456 + r.set * 16777216 + r.hold * 65536 + b2n r.pend * 128 + b2n k.spFault * 64 + b2n k.feActive * 32
    + b2n r.satLo * 16 + b2n r.satHi * 8 + b2n k.auto * 2 + b2n r.run

/-- INTEG: i in 32 bits, where they hold it. -/
def integWord (i : Int) : Nat :=
  if -2147483648 ≤ i ∧ i < 2147483648 then u32 i else Config.integOpen i % 4294967296

/-- The status registers of a context (Tables 6.11 and 6.12). -/
def publish (d : Dev) (n : Nat) : Dev :=
  let k := ctxRt d n
  let r := k.res
  let p := pgLOOP n
  let s (i : Nat) : Nat := u16 (r.srcs.getD i 2200)
  let put (d : Dev) (off v : Nat) : Dev := setReg d p off (BitVec.ofNat 32 v)
  let d := put d 0x70 (loopStat k)
  let d := put d 0x74 (u16 r.gain * 65536 + u16 r.cap)
  let d := put d 0x78 (sh16 k.spr * 65536 + u16 r.target)
  let d := put d 0x7C (sh16 r.ff * 65536 + sh16 r.p)
  let d := put d 0x80 (sh16 r.d * 65536 + sh16 r.u)
  let d := put d 0x84 (integWord k.integ)
  let d := put d 0x88 (s 1 * 65536 + s 2)
  let d := put d 0x8C (s 3 * 65536 + s 4)
  let d := put d 0x90 (s 5 * 65536)
  let d := put d 0x94 (k.feCount * 65536 + b2n k.feRise * 2 + b2n k.feActive)
  put d 0x98 (r.spIn.1 % 65536 * 65536 + r.spIn.2 % 65536)

/-- One event of a context: INT_RAW, the item of bits 2 to 7, the counts (R161, R164, R173, R183). -/
def loopEvent (n : Nat) (d : Dev) (bit : Nat) : Dev :=
  let p := pgLOOP n
  let g := rd d p LOOP.GAIN_NOW_GAIN
  let d := if bit = 5 then bump d p LOOP.LOOP_CNT_SWAPS else if bit = 2 then bump d p LOOP.LOOP_CNT_FE_FAULTS else d
  let d := if bit = 2 then raiseTally d p bit else raise d p bit
  putItem d (qSeg n 2) 0x18 1 [(bit, 16), (g, 16)]

/-- The gain in force at the latch of a transfer is copied into MAN_GAIN, over whatever the host writes there in the same
period (R164). -/
def manCopy (n : Nat) (d : Dev) : Dev :=
  match (ctxRt d n).res.copy with
  | some g => wr d (pgLOOP n) LOOP.MAN_GAIN_GAIN g.toNat
  | none => d

/-- The gain of a context is written (R146, R148, R152). -/
def writeCtx (n : Nat) (d : Dev) : Dev :=
  let k := ctxRt d n
  if ¬ k.due then d
  else
    let d := publish (modCtx d n fun k => { k with due := false }) n
    let d := manCopy n (modSeg d n fun s => { s with capMute := nbit k.res.hold 6 })
    let d := aimGain d n (gainNow d n)
    k.res.events.foldl (loopEvent n) d

/-- A reference that waits for the gain of the period takes it (R21, R340). -/
def takeRefs (n : Nat) (d : Dev) : Dev :=
  let d := if trimRef d n = .wait then setTrimRef d n (.at (gainNow d n)) else d
  if thermRef d n = .wait then setThermRef d n (.at (gainNow d n)) else d

/-- Phase 25.00 µs, as far as the loops go. -/
def writeGains (d : Dev) : Dev :=
  let d := forEach d.act writeCtx d
  let d := forEach d.act takeRefs { d with written := true }
  forEach d.act (fun n d => aimProbe n (refreshProbe n d)) (dithWrite (traceWrite d))

/-! Activation and deactivation (R172) -/

/-- A context is reset at activation: i = 0, yf unset, the gain at lo = min(FLOOR, cap). -/
def ctxActivate (d : Dev) (n : Nat) : Dev :=
  let d := setIsoCap n d
  let cap := (capOf (capSources d n)).1
  let lo := min (rd d (pgLOOP n) LOOP.GAIN_LIM_FLOOR : Int) cap
  let d := modCtx d n fun _ => { ctx0 with gain := lo, res := { loopRes0 with gain := lo } }
  wrS d (pgLOOP n) LOOP.GAIN_NOW_GAIN lo

/-- The context's state is discarded when the deactivation completes. -/
def ctxDiscard (d : Dev) (n : Nat) : Dev :=
  [0x70, 0x74, 0x78, 0x7C, 0x80, 0x84, 0x88, 0x8C, 0x90, 0x94, 0x98].foldl
    (fun d off => setReg d (pgLOOP n) off (regReset d.part (rkey (pgLOOP n) off))) (modCtx d n fun _ => ctx0)

end Sys2Proof.Machine
end

