-- ==== Sys2Proof/Machine/Vilson.lean ====
section
/-!
DEFINITION. The Vilson link's frames: blocks and slots of a basic frame, the header and its switching events, rows and samples of
containers, container descriptors, control fragments, and CRC-32C (R296 to R302, R308, R417).
-/

namespace Sys2Proof.Machine

/-- CRC-32C, one byte's eight steps (PRESUMED: the Castagnoli polynomial reflected, log entry 22). -/
def crcStep (c : BitVec 32) : Nat → BitVec 32
  | 0 => c
  | n + 1 => crcStep (if c.getLsbD 0 then (c >>> 1) ^^^ 0x82F63B78#32 else c >>> 1) n
def crc32c (l : List Byte) : Nat :=
  (~~~ (l.foldl (fun c b => crcStep (c ^^^ b.setWidth 32) 8) 0xFFFFFFFF#32)).toNat
/-- The CRC-32C of numbers taken as bytes. -/
def crcOf (l : List Nat) : Nat := crc32c (l.map (BitVec.ofNat 8))

/-! Blocks, slots and rows (R296, R298, R300) -/

/-- Blocks of frame f of a superframe. -/
def frameBlocks (f : Nat) : Nat := if f % 32 = 0 then 12208 else 12207
/-- The block at which slot r of a frame begins. -/
def slotBlock (f r : Nat) : Nat := r * frameBlocks f / 240
/-- The overhead blocks of slot r: what its row of 49 data blocks leaves. -/
def slotOverhead (f r : Nat) : Nat := slotBlock f (r + 1) - slotBlock f r - 49
/-- The row that slot r carries: slot 0 the last row of the frame before. -/
def slotRow (r : Nat) : Nat := (r + 239) % 240
/-- What the i-th overhead block of a frame carries (Table 11.1). -/
inductive Overhead where
  | marker | header | control | descriptor (cont : Nat) | idle
deriving DecidableEq, Repr
def overheadAt (i : Nat) : Overhead :=
  if i = 0 then .marker else if i < 5 then .header else if i < 21 then .control
  else if i < 149 then .descriptor (i - 21) else .idle
/-- The row of an air tick of the sender's loop period. -/
def rowOfTick (tick : Nat) : Nat := tick / 4
/-- Units of 28 bits of a container at a rate code, in every row. -/
def unitsOf (rate : Nat) : Nat := max 1 (2 ^ rate / 4)
/-- Rows of a frame that carry a sample at a rate code: every one, every second, or every fourth. -/
def rowsOf (rate : Nat) : Nat := if rate = 0 then 60 else if rate = 1 then 120 else 240
/-- The first unit of a row that a container has: those of lower containers, given as index and rate, go before. -/
def firstUnit (conts : List (Nat × Nat)) (i : Nat) : Nat :=
  ((conts.filter fun c => decide (c.1 < i)).map fun c => unitsOf c.2).foldl (· + ·) 0

/-! Samples (R301) -/

/-- A complex sample's 28 bits. A sample that carries INV is the code I = −8192, Q = 0, and a real sample of that value is
sent with I = −8191. -/
def contBits (i q : Int) (inv : Bool) : Nat :=
  let c (v : Int) : Nat := (v % 16384).toNat
  if inv then c (-8192) * 16384 else c (if i = -8192 ∧ q = 0 then -8191 else i) * 16384 + c q
/-- The sample that 28 bits carry, with its INV flag. -/
def contSample (w : Nat) : Int × Int × Bool :=
  let s (v : Nat) : Int := if v < 8192 then v else (v : Int) - 16384
  let i := s (w / 16384 % 16384)
  let q := s (w % 16384)
  if i = -8192 ∧ q = 0 then (0, 0, true) else (i, q, false)

/-! Descriptors (R302, Table 11.3) -/

/-- A descriptor of a container that changes at `row`. -/
def descWord (valid branchB : Bool) (rate phase row centre : Nat) : Nat :=
  (1 : Nat) * 2 ^ 60 + (if valid then 2 ^ 59 else 0) + (if branchB then 2 ^ 58 else 0) + rate % 8 * 2 ^ 55 + phase % 256 * 2 ^ 47
    + row % 256 * 2 ^ 32 + centre % 2 ^ 32
/-- The first sample instant after the start of the row that contains an air tick, in band-window samples: the sampling
starts at that tick. -/
def descPhase (tick rate : Nat) : Nat := 16 * (tick % 4) % (256 / 2 ^ rate)

/-! Headers (Table 11.2) -/

/-- A switching event: head branch, TDD slot, new state, air tick of the frame. -/
def eventWord (branch slot tx : Bool) (tick : Nat) : Nat :=
  2 ^ 15 + (if branch then 2 ^ 14 else 0) + (if slot then 2 ^ 13 else 0) + (if tx then 2 ^ 12 else 0) + tick % 1024

/-- A header as sent. -/
structure FrameHead where
  frameNo : Nat
  sfFrame : Nat
  sfHyper : Nat
  silent : Bool
  ack : Option Nat
  sfTick : Nat
  aligned : Bool
  events : List Nat
deriving DecidableEq, Repr

/-- Bits 255:32 of a header. -/
def FrameHead.upper (h : FrameHead) : Nat :=
  let b (x : Bool) : Nat := if x then 1 else 0
  let ev := (List.range 8).foldl (fun a i => a * 65536 + h.events.getD i 0) 0
  h.frameNo * 2 ^ 215 + h.sfFrame % 1024 * 2 ^ 205 + h.sfHyper % 65536 * 2 ^ 189 + b h.silent * 2 ^ 188
    + b h.ack.isSome * 2 ^ 187 + h.ack.getD 0 % 4096 * 2 ^ 175 + h.sfTick % 2 ^ 19 * 2 ^ 156 + b h.aligned * 2 ^ 155 + ev
/-- A header's 256 bits, its CRC over the 28 bytes before it, the first sent first. -/
def FrameHead.word (h : FrameHead) : Nat := h.upper * 2 ^ 32 + crcOf (beBytes h.upper 28)

/-- A header as received: whether its CRC passes, and the fragment it acknowledges. -/
def headOk (w : BitVec 256) : Bool := decide (crcOf (beBytes (w.toNat / 2 ^ 32) 28) = w.toNat % 2 ^ 32)
def headAck (w : BitVec 256) : Option Nat :=
  if w.getLsbD 219 then some (w.toNat / 2 ^ 207 % 4096) else none

/-! Control fragments (R308). The spec gives no byte order of their numbers: the first byte is the most significant
(PRESUMED, log entry 72). -/

/-- The 128 bytes of a fragment. -/
def fragBytes (seq : Nat) (first last : Bool) (data : List Nat) : List Nat :=
  let b (x : Bool) : Nat := if x then 1 else 0
  let body := beBytes (seq % 4096 * 16 + b first * 2 + b last) 2 ++ [data.length % 256] ++ data
    ++ List.replicate (121 - data.length) 0
  body ++ beBytes (crcOf body) 4
/-- A fragment that carries nothing. -/
def fragIdle : List Nat := fragBytes 0 false false []
/-- A fragment as received, where its CRC passes and it carries data: SEQ, FIRST, LAST and the data. -/
def fragOf (l : List Nat) : Option (Nat × Bool × Bool × List Nat) :=
  let h := beAt l 0 2
  let n := l.getD 2 0
  if n = 0 ∨ 121 < n ∨ beAt l 124 4 ≠ crcOf (l.take 124) then none
  else some (h / 16, decide (h / 2 % 2 = 1), decide (h % 2 = 1), (l.drop 3).take n)

end Sys2Proof.Machine
end

