-- ==== Sys2Proof/Machine/Commit.lean ====
section
/-!
DEFINITION. The banks of a page, the checks of segment and LOOP commits at a boundary (R16, R80 to R84, R92, R102, R112,
R140, R160, R191, R200, R303), and the commit of a port (R39 to R45, R484).
-/

namespace Sys2Proof.Machine

/-! Banks (R105 to R108) -/

/-- The RWS bits of a register. -/
def rwsMask (page off : Nat) : Word :=
  match rowAt page off with
  | some r => BitVec.ofNat 32 r.rws
  | none => 0

/-- The active bank takes a register's RWS bits from the shadow. -/
def takeShadow (page : Nat) (d : Dev) (off : Nat) : Dev :=
  let m := rwsMask page off
  setReg d page off ((reg d page off &&& ~~~ m) ||| (regSh d page off &&& m))

/-- The banks of a register change places. -/
def swapBank (page : Nat) (d : Dev) (off : Nat) : Dev :=
  let m := rwsMask page off
  let a := reg d page off
  setSh (takeShadow page d off) page off ((regSh d page off &&& ~~~ m) ||| (a &&& m))

/-- The shadow takes a register's RWS bits from the active bank. -/
def copyBank (page : Nat) (d : Dev) (off : Nat) : Dev :=
  let m := rwsMask page off
  setSh d page off ((regSh d page off &&& ~~~ m) ||| (reg d page off &&& m))

/-- The registers of a SEG page: those outside its tables, and its tables (R105). -/
def segPlain : List Nat := [0x40, 0x44, 0x48, 0x4C, 0x54, 0x800, 0x828, 0x82C, 0x850]
def segCoef : List Nat := 0x50 :: (List.range 128).map fun i => 0x100 + 4 * i
def segMask : List Nat := (List.range 32).map fun i => 0x900 + 4 * i
def segCanc : List Nat := (List.range 128).map fun i => 0xA00 + 4 * i
/-- The registers of a LOOP page: those with RWS fields outside the sets, and the sets (R149). -/
def loopPlain : List Nat := [0x40, 0x48, 0x4C, 0x5C, 0x60, 0x64, 0x68]
def loopSets : List Nat := ((List.range 8).map fun s => [0x100 + 16 * s, 0x104 + 16 * s, 0x108 + 16 * s]).flatten

/-- The shadow copy of R105 ends: every table word is copied but those written meanwhile. -/
def segCopyDone (d : Dev) (n : Nat) : Dev :=
  if rdB d (pgSEG n) SEG.COEF_STAT_COPYING then
    let keep := (segRt d n).keepWords
    let d := ((segCoef ++ segMask ++ segCanc).filter fun o => ! keep.contains o).foldl (copyBank (pgSEG n)) d
    modSeg (wr d (pgSEG n) SEG.COEF_STAT_COPYING 0) n fun s => { s with keepWords := [] }
  else d
def loopCopyDone (d : Dev) (n : Nat) : Dev :=
  if rdB d (pgLOOP n) LOOP.COEF_STAT_COPYING then
    let keep := (segRt d n).keepSets
    let d := (loopSets.filter fun o => ! keep.contains o).foldl (copyBank (pgLOOP n)) d
    modSeg (wr d (pgLOOP n) LOOP.COEF_STAT_COPYING 0) n fun s => { s with keepSets := [] }
  else d

/-- A commit during a rebuild (R108): UNSEALED, INT_RAW bit 1, a Tally record; BUILDING clears. -/
def unsealPage (d : Dev) (page : Nat) (building unsealed : Fld) : Dev :=
  if rdB d page building then raiseTally (wr (wr d page unsealed 1) page building 0) page 1 else d

/-- The banks of a SEG page at a commit: the swap of the tables written since the last one, and the other registers. A copy
still in progress is over by then (R105, R135). -/
def segBanks (d : Dev) (n : Nat) : Dev :=
  let p := pgSEG n
  let d := segCopyDone d n
  let s := segRt d n
  let tables := (if s.wroteCoef then segCoef else []) ++ (if s.wroteMask then segMask else [])
    ++ (if s.wroteCanc then segCanc else [])
  let d := tables.foldl (swapBank p) (segPlain.foldl (takeShadow p) d)
  let d := if tables = [] then d else wr d p SEG.COEF_STAT_COPYING 1
  let d := unsealPage d p SEG.COEF_STAT_BUILDING SEG.COEF_STAT_UNSEALED
  modSeg d n fun s => { s with wroteCoef := false, wroteMask := false, wroteCanc := false, wroteShift := false }

def loopBanks (d : Dev) (n : Nat) : Dev :=
  let p := pgLOOP n
  let d := loopPlain.foldl (takeShadow p) (loopCopyDone d n)
  let d := if (segRt d n).wroteSets then wr (loopSets.foldl (swapBank p) d) p LOOP.COEF_STAT_COPYING 1 else d
  let d := unsealPage d p LOOP.COEF_STAT_BUILDING LOOP.COEF_STAT_UNSEALED
  modSeg d n fun s => { s with wroteSets := false }

/-! Outcomes (R394) -/

def commitApplied (d : Dev) (page : Nat) : Dev :=
  modHdr d page fun h => { h with pending := false, commitCnt := (h.commitCnt + 1) % 65536 }
/-- The refused command is the write of COMMIT at SHADOW_CTRL. -/
def commitRefused (d : Dev) (page : Nat) : Dev :=
  raise (setError (modHdr d page fun h => { h with pending := false, refused := true }) page 0x20) page 0

/-- The items of an outcome in q0 of a segment (Table 14.4, Table 14.6). -/
def itemDone (d : Dev) (n page seq : Nat) : Dev := putItem d (qSeg n 0) 0x01 1 [(page, 16), (seq, 16)]
def itemRefused (d : Dev) (n page off : Nat) : Dev := putItem d (qSeg n 0) 0x02 1 [(page, 16), (off, 16)]

/-! Checks of one segment (R16: only of a commit that leaves the segment active) -/

/-- R15, R80. -/
def routeOk (x : SegDef) : Bool :=
  decide (x.outs ≠ []) && decide (x.mask < 4096) &&
    (if x.uplink then decide (2 ≤ x.inb ∧ x.inb ≤ 11) && x.outs.all (· < 2)
     else decide (x.inb < 2) && x.outs.all (2 ≤ ·))

/-- The head supports the rate (Table 11.5, word 3). -/
def headRate (d : Dev) (x : SegDef) (b : Nat) : Bool := nbit (capsWord d (linkOf b) 3) x.rate

/-- R42 for the engine's ports: one band's position, active on each of them. -/
def bandsOk (d : Dev) (x : SegDef) : Bool :=
  match x.pos d.part.set with
  | none => false
  | some q => x.ports.all fun p => nbit (rd d (pgPORT p) PORT.BAND_STAT_ACTIVE) q

/-- R42 for the head branches. -/
def headBandsOk (d : Dev) (x : SegDef) : Bool :=
  (decide (x.inb < 4) || headBand d x.inb false x) && (x.outs.filter (4 ≤ ·)).all fun b => headBand d b true x

/-- The TDD slot of the definition's band. -/
def tddSlot (d : Dev) (x : SegDef) : Option Nat :=
  match x.pos d.part.set with
  | some q => if 6 ≤ q then some (q - 6) else none
  | none => none

def slotClock (d : Dev) (p s : Nat) : Nat := rd d (pgPORT p) (if s = 0 then PORT.TR_CFG_CLK0 else PORT.TR_CFG_CLK1)

/-- R45 and R43 for a TDD definition. -/
def slotClockOk (d : Dev) (x : SegDef) : Bool :=
  match tddSlot d x with
  | some s => x.ports.all fun p => decide (slotClock d p s = x.clock)
  | none => true
def windowOk (d : Dev) (x : SegDef) : Bool :=
  match tddSlot d x with
  | some s => x.ports.all fun p =>
      let w : Int := rd d (pgPORT p) (PORT.TDD_WIN_CENTRE s)
      decide (2 * (w - 200000000) ≤ x.lo2 ∧ x.hi2 ≤ 2 * (w + 200000000))
  | none => true

/-- The signed value of an 18-bit code. -/
def s18 (v : Nat) : Int := if v < 131072 then (v : Int) else (v : Int) - 262144

/-- The first mask point out of order or outside the span (R191). -/
def maskBad (d : Dev) (n width : Nat) : Nat → Nat → Option Int → Option Nat
  | 0, _, _ => none
  | m + 1, k, last =>
    let o := s18 (rdSh d (pgSEG n) (SEG.PMASK_OFFS k)) * 1000
    let after := match last with | some l => decide (l < o) | none => true
    if after && decide (2 * o ≤ width ∧ -(width : Int) ≤ 2 * o) then maskBad d n width m (k + 1) (some o)
    else some (0x900 + 4 * k)

/-- The offsets of the registers that break a rule of the segment's own (log entry 24). -/
def segErrs (d : Dev) (n : Nat) : List Nat :=
  let x := defSh d n
  let o := defOf d n
  let sh := rdSh d (pgSEG n)
  let er (bad : Bool) (off : Nat) : List Nat := if bad then [off] else []
  let npts := sh SEG.PRB_CFG_NPTS
  er (decide (o.active = true ∧ o.clock ≠ x.clock)) 0x40
    ++ er (maxWidth x.profile x.rate).isNone 0x40
    ++ er (! slotClockOk d x) 0x40
    ++ er (decide (x.width < 200000 ∨ 200000000 < x.width)
        || (match maxWidth x.profile x.rate with | some w => decide (w < x.width) | none => false)) 0x48
    ++ er (! routeOk x || x.heads.any (fun b => ! linkRunning d b || ! headRate d x b)) 0x4C
    ++ er (! bandsOk d x || ! headBandsOk d x || ! windowOk d x) 0x44
    ++ er (decide (x.taps % 2 = 0) || x.outs.any fun b => ! tapsFit d x b) 0x50
    ++ er (decide (32 < npts)) 0x800
    ++ (if npts ≤ 32 then (maskBad d n x.width npts 0 none).toList else [])
    ++ er (decide (sh SEG.CANC_BULK_LIMIT < sh SEG.CANC_BULK_BULK)) 0x82C

/-! Checks of the commits of one boundary together (R83, R112, R134, R140, R200, R303) -/

/-- The definition after the boundary if the commits of `acc` take effect. -/
def postDef (d : Dev) (acc : List Nat) (m : Nat) : SegDef := if acc.contains m then defSh d m else defOf d m
/-- The segments then active. -/
def postSegs (d : Dev) (acc : List Nat) : List Nat :=
  ((d.act ++ acc).eraseDups).filter fun m => (postDef d acc m).active

/-- The members of a group then active, and whether they agree (R83). -/
def groupOk (d : Dev) (acc : List Nat) (g : Nat) : Bool :=
  let l := ((postSegs d acc).map (postDef d acc)).filter fun x => decide (x.group = g)
  decide (g = 0) || l.all fun x => l.all fun y => decide (x.profile = y.profile ∧ x.clock = y.clock)

/-- The groups that the accepted commits would break. -/
def badGroups (d : Dev) (acc : List Nat) : List Nat :=
  (((acc.filter fun n => (defSh d n).active).map fun n => (defSh d n).group).eraseDups).filter fun g => ! groupOk d acc g

/-- R140 for segment n against every other active TDD segment that shares a switch with it. -/
def switchOk (d : Dev) (acc : List Nat) (n : Nat) : Bool :=
  let x := postDef d acc n
  let sw := x.switches d.part.set
  (postSegs d acc).all fun m =>
    let y := postDef d acc m
    decide (m = n) || ((y.switches d.part.set).all fun w => ! sw.contains w)
      || (decide (x.profile = y.profile) && decide (patOf d n = patOf d m))

/-- Reference history reserved by a segment (R200); a segment keeps it until its deactivation ramp ends (R103). -/
def resvOf (mode limit : Nat) : Nat := if mode = 0 then 0 else limit + 128
def resvNow (d : Dev) (n : Nat) : Nat := resvOf (rd d (pgSEG n) SEG.CANC_CFG_MODE) (rd d (pgSEG n) SEG.CANC_BULK_LIMIT)
def resvSh (d : Dev) (n : Nat) : Nat := resvOf (rdSh d (pgSEG n) SEG.CANC_CFG_MODE) (rdSh d (pgSEG n) SEG.CANC_BULK_LIMIT)
def sumOf (l : List Nat) : Nat := l.foldl (· + ·) 0
def poolUsed (d : Dev) (acc : List Nat) : Nat :=
  sumOf (((d.act ++ acc).eraseDups).map fun m =>
    if acc.contains m ∧ (defSh d m).active then resvSh d m else if d.act.contains m then resvNow d m else 0)
def poolSize : Nat := 1048576


/-- The container pairs (segment, branch) of a link and direction: those held, and those that the commits add. -/
def pairsOf (d : Dev) (acc : List Nat) (k : Nat) (up : Bool) : List (Nat × Nat) :=
  let held := ((extRt d k).conts.filter fun c => decide (c.1 = up)).map fun c => (c.2.2.1, c.2.2.2)
  let new := ((postSegs d acc).map fun m =>
    let x := postDef d acc m
    ((if up then [x.inb] else x.outs).filter fun b => decide (4 ≤ b ∧ linkOf b = k)).map fun b => (m, b)).flatten
  (held ++ new).eraseDups
def unitsUsed (d : Dev) (acc : List Nat) (k : Nat) (up : Bool) : Nat :=
  sumOf ((pairsOf d acc k up).map fun e => unitsOf (postDef d acc e.1).rate)
def maxConts (d : Dev) (k : Nat) (up : Bool) : Nat :=
  if up then capsWord d k 0 % 256 else capsWord d k 0 / 256 % 256
def linkFits (d : Dev) (acc : List Nat) (k : Nat) (up : Bool) : Bool :=
  decide (unitsUsed d acc k up ≤ 112 ∧ (pairsOf d acc k up).length ≤ maxConts d k up)

/-- The run starts at which a switch changes, as (direction, start), the period repeating. -/
def turns (l : List (Nat × Nat × Nat)) : List (Nat × Nat) :=
  let r := l.filter fun e => decide (e.1 < 2)
  match r.getLast? with
  | none => []
  | some z => (r.foldl (fun a e => (if e.1 = a.2 then a.1 else a.1 ++ [(e.1, e.2.1)], e.1)) (([] : List (Nat × Nat)), z.1)).1

/-- The event ticks of a head branch's switch in 20 ms, as the head counts them (R141, R142, Table 11.2). -/
def headTicks (d : Dev) (n : Nat) (x : SegDef) (b : Nat) : List Nat :=
  let p := patOf d n
  let reps := if p.syms = 0 then 0 else slots20 p.scs * slotSyms p.scs / p.syms
  (turns ((List.range reps).flatMap fun k => layRuns p.scs (k * p.syms) p.runs)).map fun e =>
    ((if e.1 = 0 then (e.2 + profTicks x.profile : Int) - 11
      else (e.2 : Int) - (p.ulAdv + delayTicks d x b false + fibreTicks d b true + 11 : Nat)) % 614400).toNat

/-- The most events of a list in any interval of 960 ticks. -/
def mostIn (l : List Nat) : Nat :=
  (l.map fun a => (l.filter fun b => decide ((b + 614400 - a) % 614400 < 960)).length).foldl max 0

/-- The most switching events that one frame of link k may have to carry: the switches of one clock together, clocks
added (Table 11.2). -/
def eventsOn (d : Dev) (acc : List Nat) (k : Nat) : Nat :=
  let l := (postSegs d acc).filter fun m => (postDef d acc m).tdd d.part.set
  sumOf ((List.range 16).map fun c =>
    let pairs := ((l.filter fun m => decide ((postDef d acc m).clock = c)).map fun m =>
      let x := postDef d acc m
      (x.heads.filter fun b => decide (linkOf b = k)).map fun b => (m, b, x.pos d.part.set)).flatten
    let once := pairs.foldl (fun a e => if a.any (fun f => decide (f.2 = e.2)) then a else a ++ [e]) []
    mostIn (once.map fun e => headTicks d e.1 (postDef d acc e.1) e.2.1).flatten)

/-- A commit adds to the use of a link and direction. -/
def growsOn (d : Dev) (n k : Nat) (up : Bool) : Bool :=
  let x := defSh d n
  let b := (if up then [x.inb] else x.outs).filter fun b => decide (4 ≤ b ∧ linkOf b = k)
  x.active && decide (b ≠ []) && (! (defOf d n).active || decide ((defOf d n).rate ≠ x.rate)
    || b.any fun b => ! (defOf d n).branches.contains b)

/-- The commit of highest index that a scarce resource turns away, with its register (log entry 24). -/
def overUse (d : Dev) (acc : List Nat) : Option (Nat × Nat) :=
  let last (p : Nat → Bool) (off : Nat) : Option (Nat × Nat) := ((acc.filter p).getLast?).map fun n => (n, off)
  let pool := if poolUsed d acc ≤ poolSize then none
    else last (fun n => (defSh d n).active && decide ((if d.act.contains n then resvNow d n else 0) < resvSh d n)) 0x82C
  match pool with
  | some e => some e
  | none =>
    ([0, 1, 2, 3].map fun k =>
      ([true, false].filterMap fun up => if linkFits d acc k up then none else last (fun n => growsOn d n k up) 0x4C)
        ++ (if eventsOn d acc k ≤ 8 then [] else
            (last (fun n => (defSh d n).active && (defSh d n).heads.any fun b => decide (linkOf b = k)) 0x4C).toList)).flatten.head?

/-- One round: the commits that the rest would make break a joint rule. -/
def jointBad (d : Dev) (acc : List Nat) : List (Nat × Nat) :=
  let gs := badGroups d acc
  let l := (acc.filter fun n => (defSh d n).active &&
    (gs.contains (defSh d n).group || ! switchOk d acc n)).map fun n => (n, 0x40)
  if l = [] then (overUse d acc).toList else l

/-- Turn commits away until those that remain keep every joint rule. -/
def settleJoint (d : Dev) : Nat → List Nat → List (Nat × Nat) → List Nat × List (Nat × Nat)
  | 0, acc, bad => (acc, bad)
  | f + 1, acc, bad =>
    match jointBad d acc with
    | [] => (acc, bad)
    | l => settleJoint d f (acc.filter fun n => ! l.any fun e => decide (e.1 = n)) (bad ++ l)

/-- The commits that break a rule of their own segment, with the register. -/
def ownBad (d : Dev) (cands : List Nat) : List (Nat × Nat) :=
  cands.filterMap fun n => if (defSh d n).active then ((segErrs d n).min?).map fun off => (n, off) else none
def ownOk (d : Dev) (cands : List Nat) : List Nat := cands.filter fun n => ! (ownBad d cands).any fun e => decide (e.1 = n)

/-- The segment commits of a boundary that take effect, and the refused ones with their registers. -/
def judge (d : Dev) (cands : List Nat) : List Nat × List (Nat × Nat) :=
  settleJoint d ((ownOk d cands).length + 1) (ownOk d cands) (ownBad d cands)

/-- The groups that R83 finds broken in the rounds of `settleJoint`. -/
def groupRounds (d : Dev) : Nat → List Nat → List Nat
  | 0, _ => []
  | f + 1, acc =>
    match jointBad d acc with
    | [] => []
    | l => badGroups d acc ++ groupRounds d f (acc.filter fun n => ! l.any fun e => decide (e.1 = n))
def groupBad (d : Dev) (cands : List Nat) : List Nat := groupRounds d ((ownOk d cands).length + 1) (ownOk d cands)

/-! LOOP commits (R149, R160) -/

/-- The registers of a LOOP page that break a rule; `x` is the segment's definition after the boundary. -/
def loopErrs (d : Dev) (n : Nat) (x : SegDef) : List Nat :=
  let sh := rdSh d (pgLOOP n)
  let er (bad : Bool) (off : Nat) : List Nat := if bad then [off] else []
  let t1 := s16 (sh LOOP.RGN_A_TH1)
  let t2 := s16 (sh LOOP.RGN_A_TH2)
  let t3 := s16 (sh LOOP.RGN_B_TH3)
  let src := sh LOOP.LOOP_CTRL_SP_SRC
  er (decide (4 < src) || (decide (src = 4) && ! (x.active && x.uplink))) 0x40
    ++ er (decide (src = 4 ∧ sh LOOP.TRACK_CFG_TRACK_SEG = n)) 0x4C
    ++ er (decide (¬ (t1 < t2 ∧ t2 < t3))) 0x60
    ++ er (decide (min (t2 - t1) (t3 - t2) < 2 * (sh LOOP.RGN_B_HYST : Int))) 0x64
    ++ (List.range 8).filterMap fun s => if 32768 < sh (LOOP.SET_FF_W_FF s) then some (0x108 + 16 * s) else none

/-! The commit of a port (R39 to R45, R484) -/

/-- The (branch, position) pairs a segment occupies: its own, and those it holds until a ramp ends (R40, R103). -/
def occupies (d : Dev) (n : Nat) : List (Nat × Nat) :=
  let x := defOf d n
  (match x.pos d.part.set with
   | some q => if x.active then x.branches.map fun b => (b, q) else []
   | none => []) ++ (segRt d n).held
def posUsed (d : Dev) (p q : Nat) : Bool := d.act.any fun n => (occupies d n).contains (p, q)

/-- The window centres accepted for a slot (R43). -/
def centreOk (set : PartSet) (s v : Nat) : Bool :=
  match set, s with
  | .A, 1 => decide (3500000000 ≤ v ∧ v ≤ 4000000000)
  | _, 1 => decide (3500000000 ≤ v ∧ v ≤ 3600000000)
  | .A, _ => decide (v = 2593000000)
  | _, _ => decide (v = 2350000000)

/-- A port commit breaks no rule. -/
def portOk (d : Dev) (p : Nat) : Bool :=
  let en := rdSh d (pgPORT p) PORT.BAND_EN_EN
  let act := rd d (pgPORT p) PORT.BAND_STAT_ACTIVE
  let others := (ports4.filter (· ≠ p)).map fun r => rd d (pgPORT r) PORT.BAND_STAT_ACTIVE
  let any (q : Nat) : Bool := nbit en q || others.any fun m => nbit m q
  ((List.range 8).all fun q =>
    (! nbit en q || nbit (rd d (pgPORT p) PORT.PORT_INFO_FITTED) q) && (nbit en q || ! nbit act q || ! posUsed d p q))
    && ! (decide (d.part.set = .W) && any 1 && any 2)
    && [0, 1].all fun s =>
      let c := if s = 0 then PORT.TR_CFG_CLK0 else PORT.TR_CFG_CLK1
      let w := PORT.TDD_WIN_CENTRE s
      centreOk d.part.set s (rdSh d (pgPORT p) w)
        && (! posUsed d p (6 + s)
          || decide (rdSh d (pgPORT p) c = rd d (pgPORT p) c ∧ rdSh d (pgPORT p) w = rd d (pgPORT p) w))

/-- Air clock states (Table 5.3). -/
def ckDISABLED : Nat := 0
def ckSEARCH : Nat := 1
def ckLOCKED : Nat := 2
def ckHOLDOVER : Nat := 3
def ckLOST : Nat := 4
def ckState (d : Dev) (c : Nat) : Nat := rd d (pgAIR c) AIR.CLK_STAT_STATE

/-- A clock is beyond holdover (R47). -/
def beyondHold (d : Dev) (c : Nat) : Bool :=
  decide (ckState d c = ckLOST)
    || (decide (ckState d c = ckDISABLED ∨ ckState d c = ckSEARCH) && rdB d (pgAIR c) AIR.CLK_STAT_EVER_LOCKED)

/-- A slot's switch is held in receive (R47). -/
def holdOf (d : Dev) (p s : Nat) : Bool :=
  let c := slotClock d p s
  ! nbit (rd d (pgPORT p) PORT.BAND_STAT_ACTIVE) (6 + s) || ! rdB d (pgAIR c) AIR.CLK_STAT_SFN_KNOWN || beyondHold d c

def holdFld (s : Nat) : Fld := if s = 0 then PORT.TR_STAT_HOLD0 else PORT.TR_STAT_HOLD1
def stateFld (s : Nat) : Fld := if s = 0 then PORT.TR_STAT_STATE0 else PORT.TR_STAT_STATE1
def forceFld (s : Nat) : Fld := if s = 0 then PORT.TR_CFG_FORCE0 else PORT.TR_CFG_FORCE1

/-- The segments on a branch's slot, and the mark of R91 on those that receive there. -/
def onSlot (d : Dev) (b s : Nat) : List Nat :=
  d.act.filter fun n => isActive d n && (defOf d n).branches.contains b && decide (tddSlot d (defOf d n) = some s)
def setTurn (d : Dev) (b s : Nat) (x : Turn) : Dev :=
  forEach ((onSlot d b s).filter fun n => decide (inBranch d n = b)) (fun n d => modSeg d n fun g => { g with turn := x }) d

/-- A switch goes to receive with its transmit path muted, and reports it. -/
def switchRx (p s : Nat) (d : Dev) : Dev :=
  let moved := rdB d (pgPORT p) (stateFld s) || decide ((switchRt d (2 * p + s)).target ≠ none)
  let d := modSwitch (wr d (pgPORT p) (stateFld s) 0) (2 * p + s) fun _ => switch0
  if moved then setTurn d p s (.tail 64) else d

/-- The switch of a slot leaves its state: break before make. -/
def switchTo (d : Dev) (p s : Nat) (tx : Bool) : Dev :=
  setTurn (modSwitch d (2 * p + s) fun w => { w with target := some tx, mute := true }) p s .moving

/-- The switch of a head branch is told to change: an event in the header of the link's next frame (Table 11.2). -/
def headSwitch (b s : Nat) (tx : Bool) (tick : Nat) (d : Dev) : Dev :=
  emitD (modExt d (linkOf b) fun x => { x with events := x.events ++ [eventWord (decide (b % 2 = 1)) (decide (s = 1)) tx tick] })
    (.headSwitch (linkOf b) (2 * (b % 2) + s) tx tick)

/-- The override of R48 in force: 0 none, 1 receive, 2 transmit. It goes before the hold of R47, and HOLD stays as its
causes say (DESIGN CHOICE, log entry 60: the spec gives no precedence between them). -/
def forceOf (d : Dev) (p s : Nat) : Nat := if d.mode = .test then rd d (pgPORT p) (forceFld s) else 0

/-- A switch follows its override `f`, else its hold, else its pattern. -/
def switchDrive (d : Dev) (p s f : Nat) : Dev :=
  if f = 0 ∧ rdB d (pgPORT p) (holdFld s) then switchRx p s d
  else
    let w := switchRt d (2 * p + s)
    let want := if f = 1 then false else if f = 2 then true else w.sched
    let now := w.target.getD (rdB d (pgPORT p) (stateFld s))
    if now = want then d else switchTo d p s want

/-- A switch on which no TDD segment is active any longer goes to receive (R140): its pattern asks for nothing. An override
stays in force. -/
def switchIdle (d : Dev) (b s : Nat) : Dev :=
  if onSlot d b s ≠ [] then d
  else if 4 ≤ b then headSwitch b s false 0 d
  else
    let d := modSwitch d (2 * b + s) fun w => { w with sched := false }
    if forceOf d b s = 0 then switchRx b s d else d

/-- TR_STAT.HOLD of a slot follows its causes; a change is INT_RAW bit 1. A held switch's pattern asks for receive. -/
def refreshHold (p s : Nat) (d : Dev) : Dev :=
  let h := holdOf d p s
  if rdB d (pgPORT p) (holdFld s) = h then d
  else
    let d := raise (wrB d (pgPORT p) (holdFld s) h) (pgPORT p) 1
    let d := if h then modSwitch d (2 * p + s) fun w => { w with sched := false } else d
    if h ∧ forceOf d p s = 0 then switchRx p s d else d
def refreshHolds (d : Dev) : Dev := forEach ports4 (fun p d => refreshHold p 1 (refreshHold p 0 d)) d

/-- A PORT commit: checked and applied whole, within 20 µs of the request (R41, R484). -/
def portCommit (d : Dev) (p : Nat) : Dev :=
  let pg := pgPORT p
  if portOk d p then
    let d := [0x44, 0x4C, 0x54, 0x58].foldl (takeShadow pg) d
    let d := wr d pg PORT.BAND_STAT_ACTIVE (rd d pg PORT.BAND_EN_EN)
    refreshHold p 1 (refreshHold p 0 (commitApplied d pg))
  else commitRefused d pg

end Sys2Proof.Machine
end

