-- ==== Sys2Proof/Machine/Path.lean ====
section
/-!
DEFINITION. What a segment commit does when it takes effect (R100 to R112, R172, R187, R198 to R201, R303): activation,
deactivation, changes, invalid runs, and the outcome of all commits of one boundary.
-/

namespace Sys2Proof.Machine

/-! Containers (R302, R303) -/

/-- The lowest free container index of a link and direction. -/
def freeCont (x : Ext) (up : Bool) : Nat :=
  ((List.range 128).find? fun i => x.conts.all fun c => decide (c.1 ≠ up ∨ c.2.1 ≠ i)).getD 0

/-- CAP_USE of a link (Table 11.7). -/
def setCapUse (k : Nat) (d : Dev) : Dev :=
  let l (up : Bool) := (extRt d k).conts.filter fun c => decide (c.1 = up)
  let u (up : Bool) := sumOf ((l up).map fun c => unitsOf (rd d (pgSEG c.2.2.1) SEG.PATH_CFG_RATE))
  let p := pgEXT k
  wr (wr (wr (wr d p EXT.CAP_USE_CONT_UP (l true).length) p EXT.CAP_USE_UNITS_UP (u true))
    p EXT.CAP_USE_CONT_DN (l false).length) p EXT.CAP_USE_UNITS_DN (u false)

/-- The engine tells a head its downstream containers. -/
def tellConts (k : Nat) (d : Dev) : Dev :=
  emitD d (.containers k (d.rep.flt.silent || npSilent d)
    (((extRt d k).conts.filter fun c => ! c.1).map fun c => c.2.1))

/-- The descriptor of a container in use by a segment's branch from the boundary of its clock (R302). -/
def contDesc (d : Dev) (n b : Nat) : Nat :=
  let e := (airRt d (clockOf d n)).edge
  let rate := rd d (pgSEG n) SEG.PATH_CFG_RATE
  descWord true (decide (b % 2 = 1)) rate (descPhase e rate) (rowOfTick e) (rd d (pgSEG n) SEG.CENTRE)

/-- A head branch of a segment gets a container, or keeps it with the values in force now. -/
def contAdd (n : Nat) (d : Dev) (b : Nat) : Dev :=
  let up := decide (inBranch d n = b)
  let k := linkOf b
  let desc (i : Nat) (d : Dev) : Dev := emitD d (.descriptor k up i (contDesc d n b))
  match (extRt d k).conts.find? fun c => decide (c.1 = up ∧ c.2.2 = (n, b)) with
  | some c => desc c.2.1 (setCapUse k d)
  | none =>
    let i := freeCont (extRt d k) up
    desc i (tellConts k (setCapUse k (modExt d k fun x => { x with conts := x.conts ++ [(up, i, n, b)] })))
/-- A container is given back; the row from which it is unused is not stated (DESIGN CHOICE, log entry 72: the next frame's
first). -/
def contFree (n : Nat) (d : Dev) (b : Nat) : Dev :=
  let k := linkOf b
  let d := ((extRt d k).conts.filter fun c => decide (c.2.2 = (n, b))).foldl
    (fun d c => emitD d (.descriptor k c.1 c.2.1 (descWord false (decide (b % 2 = 1)) 0 0 0 0))) d
  tellConts k (setCapUse k (modExt d k fun x => { x with conts := x.conts.filter fun c => decide (c.2.2 ≠ (n, b)) }))

/-! Status that follows the definitions -/

/-- DELAY_STAT.MATCH: the buffer of the first output branch (R101). -/
def refreshMatch (n : Nat) (d : Dev) : Dev :=
  match outs d n with
  | b :: _ => wr d (pgSEG n) SEG.DELAY_STAT_MATCH (matchBuffer d (defOf d n) b)
  | [] => d

/-- POOL.USED (R200). -/
def refreshPool (d : Dev) : Dev := wr d pgPRB PRB.POOL_USED (sumOf (d.act.map (resvNow d)))

/-- The segments that share a switch with segment n, itself among them. -/
def sharers (d : Dev) (n : Nat) : List Nat :=
  let sw (m : Nat) := (defOf d m).switches d.part.set
  d.act.filter fun m => isActive d m && (sw m).any fun w => (sw n).contains w

/-- SHORT_TICKS of the TDD segments; a shortfall found is INT_RAW bit 5 of the clock (R143). -/
def refreshShort (n : Nat) (d : Dev) : Dev :=
  let v := if isActive d n ∧ isTdd d n then
    ((sharers d n).map fun m => shortTicks d (defOf d m) (patOf d m)).foldl max 0 else 0
  if v = rd d (pgPAT n) PAT.PAT_STAT_SHORT_TICKS then d
  else
    let d := wr d (pgPAT n) PAT.PAT_STAT_SHORT_TICKS v
    if v = 0 then d else raise d (pgAIR (clockOf d n)) 5
def refreshShorts (d : Dev) : Dev := forEach d.act refreshShort d

/-- LEN_NOW at activation, a change of RATE or of LEN (R187); a change of length ends the estimate in progress (R188). -/
def setLen (n : Nat) (d : Dev) : Dev :=
  let p := pgSEG n
  let v := if rdB d p SEG.PRB_CFG_LEN_AUTO then autoLen (rd d p SEG.PATH_CFG_RATE) else rd d p SEG.PRB_CFG_LEN
  if v = rd d p SEG.PRB_STAT_LEN_NOW then d
  else modIso (wr d p SEG.PRB_STAT_LEN_NOW v) n fun i =>
    { i with phase := 0, began := 0, cut := d.devLoop, added := [] }

/-! Invalid runs (R104, R109) -/

def setRun (d : Dev) (n cause left : Nat) : Dev :=
  wr (wr d (pgSEG n) SEG.SEG_STAT_INV_CAUSE cause) (pgSEG n) SEG.SEG_STAT_INV_LEFT left

/-- The item of a run's beginning or end in q10. -/
def runItem (d : Dev) (n cause ended ninv : Nat) : Dev :=
  putItem d (qSeg n 10) 0x50 1 [(cause, 4), (ended, 1), (0, 11), (ninv, 16)]

/-- A run begins at the boundary, or restarts in full. -/
def startRun (d : Dev) (n cause : Nat) : Dev :=
  let x := defOf d n
  let len := nInv x.profile x.rate
  let was := (segRt d n).inv
  let d := setRun (modSeg d n fun s => { s with inv := true, ninv := len, dirty := true, toneBad := true }) n cause len
  if was then d
  else runItem (raise (bump d (pgSEG n) SEG.INV_CNT_RUNS) (pgSEG n) 2) n cause 0 len

/-- The last invalid sample leaves stage 9. -/
def endRun (d : Dev) (n : Nat) : Dev :=
  let s := segRt d n
  if ¬ s.inv ∨ s.deact then d
  else
    let cause := rd d (pgSEG n) SEG.SEG_STAT_INV_CAUSE
    runItem (raise (setRun (modSeg d n fun s => { s with inv := false, ninv := 0 }) n 0 0) (pgSEG n) 3) n cause 1 s.ninv

/-- INV_LEFT counts the samples of a loop period at each latch; the end of the run is its own command. -/
def runTick (n : Nat) (d : Dev) : Dev :=
  if (segRt d n).inv then
    wr d (pgSEG n) SEG.SEG_STAT_INV_LEFT (rd d (pgSEG n) SEG.SEG_STAT_INV_LEFT - perSamples d n)
  else d

/-- The hold of the DC blocker's estimate after a switching action runs down (R91). -/
def turnTick (n : Nat) (d : Dev) : Dev :=
  match (segRt d n).turn with
  | .tail left =>
    modSeg d n fun s => { s with turn := if left ≤ perSamples d n then .none else .tail (left - perSamples d n) }
  | _ => d

/-- The segment's input branch is a head's whose link is not RUNNING: its samples are zero, with INV (R316). -/
def inputLost (d : Dev) (n : Nat) : Bool :=
  decide (4 ≤ inBranch d n) && decide (rd d (pgEXT (linkOf (inBranch d n))) EXT.EXT_STAT_STATE ≠ extRUNNING)

/-- What the level detectors will leave out of the period that begins (R96). -/
def useTick (n : Nat) (d : Dev) : Dev :=
  let lost := inputLost d n
  modSeg d n fun s =>
    { s with dirty := s.inv || isGated d n || lost, lowGate := isGated d n,
             lowInv := lost || s.inv && decide (perSamples d n < 2 * rd d (pgSEG n) SEG.SEG_STAT_INV_LEFT) }

/-! Isolation and canceller -/

/-- Activation and retune (Table 4.7, Table 7.4): taps cleared, VALID and credit gone, no depth, the estimate in progress
discarded. -/
def isoReset (d : Dev) (n : Nat) : Dev :=
  let d := setTaps d n (fun _ => (0, 0)) 0
  let d := wrS (setCredit (setValid d n false) n 0) (pgSEG n) SEG.CANC_STAT_DEPTH (-32768)
  modIso (isoDrop d n) n fun i => { i with cPrev := 0, upd := none, better := 0, guard := none }

/-- LAST_GOOD is cleared (R198). -/
def clearGood (d : Dev) (n : Nat) : Dev :=
  wr (wr d (pgSEG n) SEG.ISO_STAT_LG_SET 0) (pgSEG n) SEG.ISO_AUX_LAST_GOOD 0

/-- A kept input branch and an overlapping span keep LAST_GOOD. -/
def keepsGood (was : Nat × Int × Int) (x : SegDef) : Bool :=
  decide (was.1 = x.inb) && decide (was.2.1 < x.hi2 ∧ x.lo2 < was.2.2)

/-- The taps of HOST mode are those of the active CANC_TAP bank (Table 7.3). -/
def hostTaps (d : Dev) (n : Nat) : Dev :=
  let p := pgSEG n
  setTaps d n (fun k => (rdS d p (SEG.CANC_TAP_I k), rdS d p (SEG.CANC_TAP_Q k))) (rd d p SEG.CANC_CFG_EXP)

/-- The canceller after a commit: entry into a mode, the host's taps, the host's bulk delay (R201, Table 7.3); what an
estimate prepared for other settings is dropped. `was` is the mode in force before. -/
def cancCommit (d : Dev) (n was : Nat) : Dev :=
  let p := pgSEG n
  let mode := rd d p SEG.CANC_CFG_MODE
  let auto := rdB d p SEG.CANC_CFG_BULK_AUTO
  let d := modIso d n fun i =>
    { i with upd := i.upd.map fun u =>
        if mode = 1 ∧ (u.move.isNone ∨ auto = true) then u else { u with move := none, taps := none },
             better := if mode = 1 ∧ auto = true then i.better else 0 }
  let d :=
    if mode = 3 then hostTaps d n
    else if mode = 1 ∧ was = 0 then setTaps d n (fun _ => (0, 0)) 0
    else if mode = 0 ∧ was ≠ 0 then modIso (setCredit d n 0) n fun i => { i with cPrev := 0, upd := none }
    else d
  if auto then d else wr d p SEG.CANC_NOW_BULK_NOW (rd d p SEG.CANC_BULK_BULK)

/-! Activation and deactivation -/

/-- Put an index into an ascending list. -/
def insertNat (n : Nat) : List Nat → List Nat
  | [] => [n]
  | m :: t => if n < m then n :: m :: t else if n = m then m :: t else m :: insertNat n t

/-- The switches of branches that a segment held return to receive where no TDD segment is left on them (R140). -/
def switchesIdle (d : Dev) (held : List (Nat × Nat)) : Dev :=
  held.foldl (fun d e => if 6 ≤ e.2 then switchIdle d e.1 (e.2 - 6) else d) d

/-- The ramp of a deactivation, or of a dropped output branch, ends (R95, R98, R103): resources and containers are freed,
and the loop context of a deactivated segment is discarded. An invalid run that is in progress at a deactivation is cut
short with it: neither INT_RAW bit 3 nor the item of its end follows (DESIGN CHOICE, log entry 12). -/
def deactDone (d : Dev) (n : Nat) : Dev :=
  let held := (segRt d n).held
  let heads := heads8.filter fun b => (extRt d (linkOf b)).conts.any fun c => decide (c.2.2 = (n, b))
  let gone := if isActive d n then heads.filter fun b => ! (defOf d n).branches.contains b else heads
  let d := modSeg (gone.foldl (contFree n) d) n fun s => { s with held := [] }
  let d := pathBranches d n ((List.range 12).filter fun b => ! hasOut d n b)
  if (segRt d n).deact then
    let d := pathEnd d n
    let d := npApply d { d with act := d.act.filter (· ≠ n) }
    let d := setRun (modSeg d n fun s => { s with deact := false, inv := false, ninv := 0, gated := false, capMute := false,
                                                  turn := .none, toneRun := 0, syncReq := false, headSync := false }) n 0 0
    let d := wr (wr d (pgSEG n) SEG.LEVEL_OUT_IN_VALID 0) (pgSEG n) SEG.LEVEL_OUT_OUT_VALID 0
    refreshPool (ctxDiscard (switchesIdle (refreshDegraded n d) held) n)
  else switchesIdle d held

/-- A running segment is deactivated; `old` is its definition before (R103, R198, R259, R339). -/
def deactivate (d : Dev) (n : Nat) (old : SegDef) (held : List (Nat × Nat)) : Dev :=
  let d := modSeg d n fun s => { s with deact := true, syncReq := false, headSync := false, held := held ++ s.held }
  let d := modIso d n fun i => { i with was := some (old.inb, old.lo2, old.hi2), added := [], upd := none, guard := none }
  let d := if dithRunning d ∧ d.trace.ctx = n then dithAbort d else d
  refreshNb (linkTidy (shedLeave (npApply d (npDeactivated d n)) n))

/-- A segment is activated: a synchronizing reset with everything zeroed (Table 4.7). -/
def activate (d : Dev) (n : Nat) : Dev :=
  let d0 := d
  let d := { d with act := insertNat n d.act }
  let x := defOf d n
  let d := modSeg d n fun s => { s with gated := isTdd d n, capMute := false, turn := .none, toneRun := 0, dirty := true,
                                        lowInv := false, lowGate := false, toneBad := true }
  let d := pathNew (setReg d (pgSEG n) 0x70 0) n
  let d := match (isoRt d n).was with
    | some w => if keepsGood w x then d else clearGood d n
    | none => clearGood d n
  let d := cancCommit (isoReset d n) n 0
  let d := modIso (setLen n d) n fun i => { i with phase := 0, began := 0 }
  let d := (x.heads.foldl (contAdd n) d)
  let d := refreshDegraded n (ctxActivate d n)
  let d := modPath d n fun x => { x with gain := Ramp.at 64 (gainNow d n) }
  let d := if isTdd d n ∧ lostMute d n = true then npRaise d 7 n else d
  linkTidy (npApply d0 (startRun d n 4))

/-- The least code of the kinds of change that yield a run (Table 4.12): retune 1, profile 2, bank 3, reset 4. R103 gives
one run for several kinds of change at a boundary and no precedence of their codes (DESIGN CHOICE, log entry 12). -/
def runCause (retune profile bank sync : Bool) : Nat :=
  if retune then 1 else if profile then 2 else if bank then 3 else if sync then 4 else 0

/-- The changes of a commit that leaves a running segment running (Table 4.7). -/
def changeSeg (d : Dev) (n : Nat) (old : SegDef) (bank : Bool) (mode : Nat) : Dev :=
  let x := defOf d n
  let retune := decide (old.centre ≠ x.centre ∨ old.rate ≠ x.rate ∨ old.inb ≠ x.inb)
  let added := x.outs.filter fun b => ! old.outs.contains b
  let gone := old.heads.filter fun b => ! x.branches.contains b
  let d := if retune then pathNoDc (isoReset d n) n else d
  let d := if retune ∧ ¬ keepsGood (old.inb, old.lo2, old.hi2) x then clearGood d n else d
  let d := cancCommit d n mode
  let d := setLen n d
  let d := if added = [] then d
    else modIso (setValid d n false) n fun i => { i with added := i.added ++ added }
  let d := (x.heads.filter fun b => ! gone.contains b).foldl (contAdd n) d
  let d := refreshDegraded n d
  let d := modSeg d n fun s => { s with held := s.held ++
    (match old.pos d.part.set with
     | some q => (old.branches.filter fun b => ! x.branches.contains b).map fun b => (b, q)
     | none => []) }
  let s := segRt d n
  let cause := runCause retune (decide (old.profile ≠ x.profile)) bank (s.syncReq || s.headSync)
  let place := retune || s.syncReq || s.headSync
  let d := pathBranches (modSeg d n fun s => { s with syncReq := false, headSync := false }) n added
  linkTidy (if cause = 0 then d else startRun (pathRestart d n place) n cause)

/-- A synchronizing reset without a commit (R103, R316). -/
def syncSeg (n : Nat) (d : Dev) : Dev :=
  let s := segRt d n
  if isActive d n ∧ (s.syncReq = true ∨ s.headSync = true) then
    startRun (pathRestart (modSeg d n fun s => { s with syncReq := false, headSync := false }) n true) n 4
  else d

/-- OFF takes effect in TEST (R197). -/
def offStarts (n : Nat) (d : Dev) : Dev := if probeOff d n then outputDropped d n else d
/-- OFF is in force outside TEST: ERROR (R190). -/
def offError (n : Nat) (d : Dev) : Dev :=
  if d.mode ≠ .test ∧ rdB d (pgSEG n) SEG.PRB_CFG_OFF then setError d (pgSEG n) 0x800 else d

/-- A segment commit takes effect (R103). -/
def segApply (d : Dev) (n : Nat) : Dev :=
  let d0 := d
  let old := defOf d n
  let mode := rd d (pgSEG n) SEG.CANC_CFG_MODE
  let s := segRt d n
  let bank := s.wroteCoef || s.wroteMask || s.wroteCanc || s.wroteShift
  let held := occupies d n
  let will := (defSh d n).active
  let d := if will ∧ ¬ old.active then deactDone d n else d
  let d := commitApplied (segBanks d n) (pgSEG n)
  let d :=
    if old.active ∧ ¬ will then deactivate d n old held
    else if will ∧ ¬ old.active then activate d n
    else if will then npApply d0 (changeSeg d n old bank mode)
    else d
  let d := if probeOff d0 n then d else offStarts n d
  refreshPool (refreshMatch n (offError n d))

/-- A LOOP commit takes effect. -/
def loopApply (d : Dev) (n : Nat) : Dev := commitApplied (loopBanks d n) (pgLOOP n)

/-! The commits of one boundary -/

/-- The clock at whose boundary a segment's pages commit (R79, R84, R149): the one in force, or for an inactive segment the
one its commit names. -/
def commitClock (d : Dev) (n : Nat) : Nat := if (defOf d n).active then clockOf d n else (defSh d n).clock

/-- The segments of clock c with a pending commit that this boundary takes, by page. -/
def dueSegs (d : Dev) (c : Nat) (taken : Nat → Bool) (page : Nat → Nat) : List Nat :=
  (d.rep.hdr.filterMap fun e =>
    if e.2.pending ∧ page 0 ≤ e.1 ∧ e.1 < page 0 + 1024 then some (e.1 - page 0) else none).filter
    fun n => decide (commitClock d n = c) && taken (page n)

/-- The verdict over a boundary: accepted and refused segment commits, and accepted and refused LOOP commits. -/
structure Verdict where
  segs : List Nat
  segsBad : List (Nat × Nat)
  loops : List Nat
  loopsBad : List (Nat × Nat)
deriving DecidableEq, Repr

/-- The group whose rule turned a segment commit away takes the members' LOOP commits with it (R83). -/
def verdict (d : Dev) (c : Nat) (taken : Nat → Bool) : Verdict :=
  let cands := dueSegs d c taken pgSEG
  let lps := dueSegs d c taken pgLOOP
  let (acc, bad) := judge d cands
  let gs := groupBad d cands
  let lbad := lps.filterMap fun n =>
    let x := postDef d acc n
    if x.active ∧ gs.contains x.group then some (n, 0x40)
    else ((loopErrs d n x).min?).map fun off => (n, off)
  ⟨acc, bad, lps.filter fun n => ! lbad.any fun e => decide (e.1 = n), lbad⟩

/-- Step 2 of R134: the accepted commits take effect in ascending index, a segment's before its loop's, then the
synchronizing resets, then the refusals are reported. -/
def applyVerdict (d : Dev) (c seq : Nat) (v : Verdict) : Dev :=
  let d := forEach ((v.segs ++ v.loops).eraseDups.foldr insertNat []) (fun n d =>
    let d := if v.segs.contains n then itemDone (segApply d n) n (pgSEG n) seq else d
    if v.loops.contains n then itemDone (loopApply d n) n (pgLOOP n) seq else d) d
  let d := forEach (d.act.filter fun n => decide (clockOf d n = c)) syncSeg d
  let d := v.segsBad.foldl (fun d e => itemRefused (commitRefused d (pgSEG e.1)) e.1 (pgSEG e.1) e.2) d
  v.loopsBad.foldl (fun d e => itemRefused (commitRefused d (pgLOOP e.1)) e.1 (pgLOOP e.1) e.2) d

/-! Commands -/

/-- SEG_CMD.SYNC_RESET (R103). -/
def syncReset (d : Dev) (n : Nat) : Dev :=
  if isActive d n then modSeg d n fun s => { s with syncReq := true } else d

/-- COEF_CTRL.SEAL of a SEG page, or of a LOOP page (R106, R149). -/
def coefSeal (d : Dev) (n : Nat) (loop : Bool) : Dev :=
  if loop then wr d (pgLOOP n) LOOP.COEF_STAT_BUILDING 0 else wr d (pgSEG n) SEG.COEF_STAT_BUILDING 0

/-- A running segment is deactivated at once by a soft reset of its page (R390). -/
def segCut (d : Dev) (n : Nat) : Dev :=
  if (defOf d n).active then deactivate d n (defOf d n) (occupies d n) else d

end Sys2Proof.Machine
end

