-- ==== Sys2Proof/Machine/Mon.lean ====
section
/-!
DEFINITION. The monitor converters (R319 to R335): conversions, the sequence and its triggers, service slots, bursts, the
result ring and the system calibration.
-/

namespace Sys2Proof.Machine

def modMon (d : Dev) (f : Mon → Mon) : Dev := { d with mon := f d.mon }

/-- The code of a reading, and its OVR (R321). -/
def readCode : Reading → Nat
  | .code c => c.toNat
  | .high => 16383
  | .low => 0
def readOver : Reading → Bool
  | .code _ => false
  | _ => true

/-- A differential channel, and a channel with a corrected class (Table 12.1). -/
def monDiff (ch : Nat) : Bool := decide (ch = 12 ∨ ch = 13 ∨ ch = 24 ∨ ch = 25)
def monCorr (ch : Nat) : Bool := decide (ch ≤ 14 ∨ (16 ≤ ch ∧ ch ≤ 23) ∨ ch = 30)

/-- The corrected value of a code, 0 to 16,383 (R329): OFFSET is in sixteenths of a code, GAIN in units of 2^-15. -/
def corrected14 (d : Dev) (ch raw : Nat) : Nat :=
  let z : Int := if monDiff ch then 8192 else 0
  let off := rdS d pgMCOR (MCOR.CORR_OFFSET ch)
  let gain : Int := rd d pgMCOR (MCOR.CORR_GAIN ch)
  (max 0 (min 16383 (z + ((16 * (raw - z) - off) * gain + 262144) / 524288))).toNat

/-- VALUE of a format (Table 12.3). -/
def monValue (d : Dev) (ch fmt raw : Nat) : Nat :=
  if fmt = 0 then (if monDiff ch then u16 ((corrected14 d ch raw : Int) - 8192) else corrected14 d ch raw)
  else if fmt = 1 then raw
  else if fmt = 2 then raw * 4
  else if fmt = 3 then u16 ((raw : Int) - 8192)
  else u16 (((raw : Int) - 8192) * 4)

/-- A result word (Table 12.4). -/
def resultWord (value entry ch fmt : Nat) (svc past recov first : Bool) : Nat :=
  value * 65536 + entry % 64 * 1024 + ch * 32 + b2n (decide (fmt = 0)) * 16 + b2n svc * 8 + b2n past * 4 + b2n recov * 2
    + b2n first

/-- The ring's registers follow it. -/
def ringShown (d : Dev) : Dev :=
  wr (wr d pgMON MON.RING_STAT_LEVEL d.mon.ring.length) pgMON MON.RING_DATA_RESULT (d.mon.ring.headD 0)

/-- A result enters the ring, or is discarded (R331). -/
def ringPut (d : Dev) (w : Nat) : Dev :=
  if d.mon.ring.length < 1024 then ringShown (modMon d fun m => { m with ring := m.ring ++ [w] })
  else raise (wr (bump d pgMON MON.RING_STAT_DROPPED) pgMON MON.RING_STAT_OVERFLOW 1) pgMON 0

/-- A read of RING_DATA (R331). -/
def ringRead (d : Dev) : Dev := ringShown (modMon d fun m => { m with ring := m.ring.drop 1 })

/-! The sequence table -/

def seqRegs : List Nat := 0x40 :: ((List.range 64).map fun i => [0x100 + 8 * i, 0x104 + 8 * i]).flatten
def seqLast (d : Dev) : Nat := rd d pgMSEQ MSEQ.SEQ_CFG_LAST

/-- An entry of the shadow breaks no rule of R325. -/
def entryOk (d : Dev) (i : Nat) : Bool :=
  let sh := rdSh d pgMSEQ
  let ok (ch f : Nat) : Bool :=
    decide (f ≤ 4) && (decide (f ≠ 0) || monCorr ch) && (decide (f < 3) || monDiff ch)
  decide (sh (MSEQ.SEQ_B_TRIG i) ≠ 3) && ok (sh (MSEQ.SEQ_A_CH0 i)) (sh (MSEQ.SEQ_B_FMT0 i))
    && ok (16 + sh (MSEQ.SEQ_A_CH1 i)) (sh (MSEQ.SEQ_B_FMT1 i))

/-- A pending commit of the sequence takes effect (R325). -/
def seqTake (d : Dev) : Dev :=
  if ¬ (hdr d pgMSEQ).pending then d
  else if (List.range (rdSh d pgMSEQ MSEQ.SEQ_CFG_LAST + 1)).all (entryOk d) then
    commitApplied (seqRegs.foldl (takeShadow pgMSEQ) d) pgMSEQ
  else commitRefused d pgMSEQ

/-- MON_STAT.ENTRY and WAIT follow the sequence. -/
def monShown (d : Dev) : Dev :=
  wrB (wr d pgMON MON.MON_STAT_ENTRY d.mon.entry) pgMON MON.MON_STAT_WAIT (decide (d.mon.phase = .wait))

/-- Entry e of the active bank is reached: it converts at once, or waits for its trigger (R324). -/
def reachEntry (d : Dev) (e : Nat) : Dev :=
  let ph : MonPhase := if rd d pgMSEQ (MSEQ.SEQ_B_TRIG e) = 0 then .convert else .wait
  modMon d fun m => { m with entry := e, made := 0, trig := false, phase := ph }

/-- A pass begins, with the table committed meanwhile; a commit pending while an entry waits takes effect at once, and the
entry is then reached anew (log entry 41). -/
def beginPass (d : Dev) : Dev := reachEntry (seqTake d) 0
def waitTake (d : Dev) : Dev :=
  if d.mon.phase = .wait ∧ (hdr d pgMSEQ).pending then
    let d := seqTake d
    reachEntry d (if d.mon.entry ≤ seqLast d then d.mon.entry else 0)
  else d
def monBegin (d : Dev) : Dev := waitTake (beginPass d)

/-- The next entry, or the next pass (R323). -/
def monAdvance (d : Dev) : Dev :=
  if seqLast d ≤ d.mon.entry then monBegin (incr d pgMON MON.MON_STAT_PASSES)
  else waitTake (reachEntry d (d.mon.entry + 1))

/-- What the converters do next, at a conversion boundary (R326, R328): a service insertion that is due, a burst, the
sequence, or nothing. -/
def monPick (d : Dev) : Dev :=
  let m := d.mon
  let burst := m.bursts.any fun b => decide (b.n < 256)
  let deferred := decide (m.phase = .convert) && m.trig && ! burst
  let c : MonSrc :=
    if 0 < m.due ∧ ¬ deferred then .svc
    else if burst then .burst
    else if m.phase = .convert ∨ m.phase = .late then .seq
    else .none
  let m := { m with cur := c, phase := if c = .seq ∧ m.phase = .late then .convert else m.phase }
  monShown { d with mon := m }

/-- A conversion boundary: a stop or a restart asked for meanwhile, then the choice. -/
def monBoundary (d : Dev) : Dev :=
  let d :=
    if d.mon.stop then modMon d fun m => { m with phase := .stopped, stop := false, restart := false, made := 0 }
    else if d.mon.restart then monBegin (modMon d fun m => { m with restart := false })
    else d
  monPick d

/-- The choice is made at once where nothing converts. -/
def monKick (d : Dev) : Dev := if d.mon.cur = .none then monBoundary d else monShown d

/-- A trigger of a kind (R324). -/
def monTrig (d : Dev) (kind : Nat) : Dev :=
  let m := d.mon
  if m.phase = .wait ∧ rd d pgMSEQ (MSEQ.SEQ_B_TRIG m.entry) = kind then
    if m.cur = .none then
      monBoundary (wr (modMon d fun m => { m with phase := .convert, trig := true }) pgMON MON.TRIG_STAT_LAST_LAG 0)
    else monShown (modMon d fun m => { m with phase := .late, trig := true })
  else if kind = 1 then raise (bump d pgMON MON.TRIG_STAT_MISSED) pgMON 4
  else d

/-! Commands of the sequence -/

/-- MON_CTRL.EN (R323). A commit pending when EN becomes 0 takes effect at once (R325). -/
def monEnable (d : Dev) (en : Bool) : Dev :=
  let was := rdB d pgMON MON.MON_CTRL_EN
  let d := wrB d pgMON MON.MON_CTRL_EN en
  if en ∧ ¬ was then
    if d.mon.stop then modMon d fun m => { m with stop := false, restart := true }
    else monKick (monBegin d)
  else if ¬ en ∧ was then
    seqTake (if d.mon.cur = .none then monShown (modMon d fun m => { m with phase := .stopped, made := 0 })
      else modMon d fun m => { m with stop := true, restart := false })
  else d

/-- MON_CTRL.RESTART (R325); a stopped sequence has no entry in progress. -/
def monRestart (d : Dev) : Dev :=
  if d.mon.phase = .stopped ∨ d.mon.stop then d
  else monKick (modMon d fun m => { m with restart := true })

/-- An entry's DELAY runs out. -/
def monDelayEnd (d : Dev) : Dev := if d.mon.phase = .delay then monKick (monAdvance d) else d

/-- A service insertion falls due (R326). -/
def monService (d : Dev) : Dev := monKick (modMon d fun m => { m with due := m.due + 1 })

/-! Conversions -/

/-- The channels and formats of a service slot (Table 12.2). -/
def slotPair (s : Nat) : (Nat × Nat) × (Nat × Nat) :=
  if s < 4 then ((s, 0), (16 + s, 0))
  else if s < 8 then ((s, 0), (16 + s, 0))
  else if s < 12 then ((s, 0), (18 + s, 1))
  else if s = 12 then ((14, 0), (30, 0))
  else ((15, 1), (31, 1))

/-- The pair of a burst (R328). -/
def burstPair : BurstFor → (Nat × Nat) × (Nat × Nat)
  | .chain p => ((p, 0), (16 + p, 0))
  | .zero ch => ((12 + ch, 0), (31, 1))
  | .full ch => ((12 + ch, 0), (31, 1))

/-- The pair of the sequence's entry. -/
def entryPair (d : Dev) (e : Nat) : (Nat × Nat) × (Nat × Nat) :=
  let g := rd d pgMSEQ
  ((g (MSEQ.SEQ_A_CH0 e), g (MSEQ.SEQ_B_FMT0 e)), (16 + g (MSEQ.SEQ_A_CH1 e), g (MSEQ.SEQ_B_FMT1 e)))

/-- The reference check of one converter (R327): an over-range reading counts neither way. -/
def refCheck (d : Dev) (one : Bool) (x : Reading) : Dev :=
  let code := readCode x
  let within := decide (9900 ≤ code ∧ code ≤ 10100) && ! readOver x
  let out := ! readOver x && ! within
  let bad := if out then (if one then d.mon.bad1 else d.mon.bad0) + 1 else 0
  let good := if within then (if one then d.mon.good1 else d.mon.good0) + 1 else 0
  let d := modMon d fun m =>
    if one then { m with bad1 := min 3 bad, good1 := min 3 good } else { m with bad0 := min 3 bad, good0 := min 3 good }
  let f := if one then MON.REF_STAT_FAIL1 else MON.REF_STAT_FAIL0
  let s := if one then 161 else 160
  if 3 ≤ bad ∧ ¬ rdB d pgMON f then raiseTally (corrected (wr d pgMON f 1) s true) pgMON 3
  else if 3 ≤ good ∧ rdB d pgMON f then endCause (wr d pgMON f 0) s
  else d

/-- What the consumers of a service slot take (R49, R344, R327). -/
def serviceUse (d : Dev) (s : Nat) (x0 x1 : Reading) : Dev :=
  if 4 ≤ s ∧ s < 8 then
    wr d (pgDCF (s - 4)) DCF.DCF_MEAS_VOLTAGE (quot (2 * (corrected14 d (16 + s) (readCode x1) : Int)) 10).toNat
  else if 8 ≤ s ∧ s < 12 then
    let d := wr d (pgDCF (s - 8)) DCF.DCF_MEAS_CURRENT (quot (corrected14 d s (readCode x0) : Int) 10).toNat
    modMon d fun m => { m with xt := tset (fun _ => 0) m.xt (s - 8) (readCode x1) }
  else if s = 13 then refCheck (refCheck d false x0) true x1
  else d

/-- One result: RES, MON_CNT, and for AIN0 and AIN1 the latest clean corrected result (R322, R331, R166). -/
def putResult (d : Dev) (ch fmt entry : Nat) (x : Reading) (svc recov first : Bool) : Dev × Nat :=
  let past := readOver x
  let w := resultWord (monValue d ch fmt (readCode x)) entry ch fmt svc past recov first
  let v := (corrected14 d ch (readCode x) : Int) - 8192
  let d := wr d pgMRES (MRES.RES_RESULT ch) w
  let d := if past then bump d pgMON MON.MON_CNT_OVR_EVENTS else d
  let d := if recov then bump d pgMON MON.MON_CNT_RECOVERIES else d
  let d := if monDiff ch ∧ ch < 14 ∧ fmt = 0 ∧ ¬ past ∧ ¬ recov then
      modMon d fun m => { m with ain := tset (fun _ => none) m.ain (ch - 12) (some (v, d.devLoop)) }
    else d
  (d, w)

/-- Both results of a pair, the recovery flags of the next one, and the two words. -/
def putPair (d : Dev) (c : (Nat × Nat) × (Nat × Nat)) (entry : Nat) (x0 x1 : Reading) (svc first : Bool) :
    Dev × Nat × Nat :=
  let (d, w0) := putResult d c.1.1 c.1.2 entry x0 svc d.mon.rec0 first
  let (d, w1) := putResult d c.2.1 c.2.2 entry x1 svc d.mon.rec1 first
  (modMon d fun m => { m with rec0 := readOver x0, rec1 := readOver x1 }, w0, w1)

/-- The burst in progress counts a clean conversion. -/
def burstCount (l : List Burst) (v : Nat) : List Burst :=
  match l with
  | [] => []
  | b :: t => if b.n < 256 then { b with n := b.n + 1, sum := b.sum + v } :: t else b :: burstCount t v

/-- A pair conversion completes (R320 to R331). `lag` is the start lag in nanoseconds of a triggered entry that this
conversion held up. -/
def monConvert (d : Dev) (x0 x1 : Reading) (lag : Nat) : Dev :=
  let m := d.mon
  let late (d : Dev) : Dev := if d.mon.phase = .late then wr d pgMON MON.TRIG_STAT_LAST_LAG lag else d
  match m.cur with
  | .none => d
  | .svc =>
    let (d, _, _) := putPair d (slotPair m.slot) m.slot x0 x1 true false
    let d := serviceUse d m.slot x0 x1
    monBoundary (late (modMon d fun m => { m with slot := (m.slot + 1) % 14, due := m.due - 1 }))
  | .burst =>
    match m.bursts.find? fun b => decide (b.n < 256) with
    | none => monBoundary d
    | some b =>
      let clean := ! (readOver x0 || readOver x1 || m.rec0 || m.rec1)
      let entry := match b.who with
        | .chain p => p
        | _ => Config.freeValue d.free
      let (d, _, _) := putPair { d with free := d.free + 1 } (burstPair b.who) entry x0 x1 true false
      let v := corrected14 d (burstPair b.who).1.1 (readCode x0)
      monBoundary (late (if clean then modMon d fun m => { m with bursts := burstCount m.bursts v } else d))
  | .seq =>
    let (d, w0, w1) := putPair d (entryPair d m.entry) m.entry x0 x1 false (decide (m.made = 0))
    let d := if rdB d pgMSEQ (MSEQ.SEQ_B_STORE m.entry) then ringPut (ringPut d w0) w1 else d
    let d := modMon d fun m => { m with made := m.made + 1 }
    let d :=
      if d.mon.made ≤ rd d pgMSEQ (MSEQ.SEQ_A_REPEAT m.entry) then d
      else if rd d pgMSEQ (MSEQ.SEQ_A_DELAY m.entry) = 0 ∧ ¬ d.mon.stop ∧ ¬ d.mon.restart then monAdvance d
      else modMon d fun m => { m with phase := .delay, trig := false }
    monBoundary d

/-! Bursts and the system calibration (R328, R332, R333) -/

/-- The calibration ends in a state, with its INT_RAW bit and Tally record. -/
def calOutcome (d : Dev) (st bit : Nat) : Dev := raiseTally (wr d pgMON MON.CAL_STAT_STATE st) pgMON bit

/-- MEAN in half codes. -/
def calMean (d : Dev) (sum : Nat) : Dev := wr d pgMON MON.CAL_STAT_MEAN (quot sum 128).toNat

/-- The full-scale burst gives OFFSET and GAIN (R332, R333): sums are of 256 codes. OFFSET in sixteenths and GAIN in units
of 2^-15 are rounded to the nearest (log entry 44). -/
def calFull (d : Dev) (ch sz sf : Nat) : Dev :=
  let span : Int := (sf : Int) - sz
  let off : Int := (sz : Int) - 2097152
  let num : Int := (rd d pgMON MON.CAL_VFS_V_CAL : Int) * 1000000 * 256
  if span ≤ 0 ∨ num * 10 < span * 305176 * 9 ∨ span * 305176 * 11 < num * 10 ∨ off < -131072 ∨ 131072 < off then
    calOutcome d 4 2
  else
    let gain := (2 * num * 32768 + span * 305176) / (2 * span * 305176)
    let d := modMon d fun m => { m with save := some (ch, u16 ((off + 8) / 16), gain.toNat), zero := none }
    calOutcome d 3 1

/-- A burst reaches its 256 clean conversions. The mean of a chain is kept as the sum of 256. -/
def monBurstDone (d : Dev) : Dev :=
  match d.mon.bursts with
  | [] => d
  | b :: t =>
    if b.n < 256 then d
    else
      let d := modMon d fun m => { m with bursts := t }
      match b.who with
      | .chain p => emitD (modChain d p fun c => { c with idq := some b.sum }) (.burstMean p b.sum)
      | .zero ch => wr (modMon (calMean d b.sum) fun m => { m with zero := some (ch, b.sum) }) pgMON MON.CAL_STAT_STATE 2
      | .full ch =>
        match d.mon.zero with
        | some z => calFull (calMean d b.sum) ch z.2 b.sum
        | none => d

/-- CAL_CTRL.OP 1 and OP 2 (R332). -/
def calAsk (d : Dev) (ch : Nat) (w : BurstFor) : Dev :=
  monKick (reqBurst (wr (wr d pgMON MON.CAL_STAT_CH ch) pgMON MON.CAL_STAT_STATE 1) w)
def calZero (d : Dev) (ch : Nat) : Dev :=
  if d.mode ≠ .test then setError d pgMON 0x5C
  else if rd d pgMON MON.CAL_STAT_STATE = 1 then d
  else calAsk (modMon d fun m => { m with zero := none }) ch (.zero ch)
def calFullScale (d : Dev) (ch : Nat) : Dev :=
  if d.mode ≠ .test ∨ rd d pgMON MON.CAL_STAT_STATE ≠ 2 ∨ rd d pgMON MON.CAL_STAT_CH ≠ ch then setError d pgMON 0x5C
  else calAsk d ch (.full ch)

/-- The save of an accepted calibration completes, and its values enter CORR. -/
def calSaved (d : Dev) : Dev :=
  match d.mon.save with
  | none => d
  | some (ch, off, gain) =>
    let d := modMon d fun m => { m with save := none }
    wr (wr d pgMCOR (MCOR.CORR_OFFSET (12 + ch)) off) pgMCOR (MCOR.CORR_GAIN (12 + ch)) gain

/-- Leaving TEST ends a calibration in IDLE. -/
def calLeaveTest (d : Dev) : Dev :=
  let st := rd d pgMON MON.CAL_STAT_STATE
  if st = 1 ∨ st = 2 then
    wr (modMon d fun m => { m with zero := none, bursts := m.bursts.filter fun b =>
      match b.who with | .chain _ => true | _ => false }) pgMON MON.CAL_STAT_STATE 0
  else d

end Sys2Proof.Machine
end

