-- ==== Sys2Proof/Machine/Tx.lean ====
section
/-!
DEFINITION. The transmit chains' starts and stops, load supervision, predistortion, the back-off and the emission monitor
(R275 to R294).
-/

namespace Sys2Proof.Machine

/-! Starts and stops (R279 to R281) -/

/-- A bias failure: OFF, BIAS_FAIL, a corrected fault, a Tally record, INT_RAW bit 1. -/
def biasFail (d : Dev) (p : Nat) : Dev :=
  let d := modChain d p fun c => { c with drain := false, gate := false, rf := false, idq := none }
  let d := txSet (wr d (pgTX p) TX.TX_STAT_BIAS_FAIL 1) p txOFF
  raiseTally (corrected d (64 + p) false) (pgTX p) 1

/-- A write of EN from 0 to 1 makes a new start after a bias failure; a permitting mode starts the chain too. -/
def txEnable (d : Dev) (p : Nat) : Dev :=
  let d := if rdB d (pgTX p) TX.TX_CTRL_EN then d
    else wr (wr d (pgTX p) TX.TX_CTRL_EN 1) (pgTX p) TX.TX_STAT_BIAS_FAIL 0
  txGo d p

/-- The start sequence's end: a mean current within 20 % of the target is accepted. `sum` is of 256 codes of 0.25 mA. -/
def txBiasDone (d : Dev) (p : Nat) : Dev :=
  match (chainRt d p).idq with
  | none => d
  | some sum =>
    if txState d p ≠ txBIASING then d
    else
      let tgt : Int := 1024 * rd d (pgTX p) TX.BIAS_STAT_IDQ_TGT
      let d := wr d (pgTX p) TX.BIAS_STAT_IDQ (quot sum 1024).toNat
      if 5 * (sum - tgt) ≤ tgt ∧ 5 * (tgt - sum) ≤ tgt then
        txGo (txSet (modChain d p fun c => { c with gate := true, idq := none }) p txREADY) p
      else biasFail d p

/-- The stop's ramps have ended. -/
def txStop (d : Dev) (p : Nat) : Dev := if txState d p = txSTOPPING then txStopped d p else d

/-- 1 ms after pinch-off of a stop for EN 0 or SAFE. -/
def txDrainOff (d : Dev) (p : Nat) : Dev :=
  if txState d p ≠ txSTOPPING ∨ (chainRt d p).gate = true then d
  else if txTarget d p = txOFF then txSet (modChain d p fun c => { c with drain := false, rf := false }) p txOFF
  else txStopped d p

/-- The gate bias follows its calibration: the current moves by at most 2 % (R280). -/
def biasTrack (d : Dev) (p idq : Nat) : Dev :=
  if txState d p = txREADY ∨ txState d p = txON then
    let now := rd d (pgTX p) TX.BIAS_STAT_IDQ
    let step := now * 2 / 100
    wr d (pgTX p) TX.BIAS_STAT_IDQ (max (now - step) (min (now + step) idq))
  else d

/-! Load supervision (R282, R283) -/

/-- A load trip. LOAD_TRIES increments with it, and the third trip latches (Table 10.2; DEDUCED, log entry 68). -/
def loadTrip (d : Dev) (p : Nat) : Dev :=
  let tries := min 3 (rd d (pgTX p) TX.TX_STAT_LOAD_TRIES + 1)
  let d := modChain d p fun c => { c with load := if tries = 3 then 2 else 1, tripRun := 0, lowRun := 0, clearRun := 0 }
  let d := wr d (pgTX p) TX.TX_STAT_LOAD_TRIES tries
  txGo (branchDropped p (raiseTally (corrected d (68 + p) false) (pgTX p) 2)) p

/-- One measurement of the reflected power. -/
def loadMeasure (d : Dev) (p : Nat) (refl : Int) : Dev :=
  let pg := pgTX p
  let d := wrS d pg TX.LOAD_STAT_REFL refl
  let fwd := (chainRt d p).fwd
  if txState d p ≠ txON ∨ fwd < 400 then d
  else
    let rl := clamp16 (fwd - refl)
    let warn := rdS d pg TX.LOAD_CFG_RL_WARN
    let d := modChain (wrS d pg TX.LOAD_STAT_RL rl) p fun c =>
      { c with lowRun := if rl < warn then c.lowRun + 1 else 0, clearRun := if warn + 20 < rl then c.clearRun + 1 else 0,
               tripRun := if rl < rdS d pg TX.LOAD_CFG_RL_TRIP then c.tripRun + 1 else 0 }
    let c := chainRt d p
    let d := if 10 ≤ c.lowRun then wr d pg TX.TX_STAT_LOAD_WARN 1
      else if 10 ≤ c.clearRun then wr d pg TX.TX_STAT_LOAD_WARN 0 else d
    if 3 ≤ c.tripRun then loadTrip d p else d

/-- The chain has been in its state for so many seconds. -/
def txStood (d : Dev) (p secs : Nat) : Bool := decide ((chainRt d p).since + 32000 * secs ≤ d.devLoop + 1)

/-- 10 s in LOAD_OFF. -/
def loadRetry (d : Dev) (p : Nat) : Dev :=
  if txState d p = txLOADOFF ∧ txStood d p 10 = true then txGo (modChain d p fun c => { c with load := 0 }) p else d

/-- 600 s in ON without a trip. -/
def loadRecover (d : Dev) (p : Nat) : Dev :=
  if txState d p = txON ∧ txStood d p 600 = true then wr d (pgTX p) TX.TX_STAT_LOAD_TRIES 0 else d

/-- A write of 1 to LOAD_RELEASE. -/
def loadRelease (d : Dev) (p : Nat) : Dev :=
  if txState d p = txLOADLATCHED then
    txGo (modChain (wr d (pgTX p) TX.TX_STAT_LOAD_TRIES 0) p fun c => { c with load := 0 }) p
  else d

/-! Predistortion (R284 to R288) -/

/-- A TDD slot of a port has an active segment (R140). -/
def slotActive (d : Dev) (p s : Nat) : Bool :=
  d.act.any fun n => isActive d n && (defOf d n).ports.contains p && decide ((defOf d n).pos d.part.set = some (6 + s))

/-- Every active TDD slot of the port is in transmit (R276, R287). -/
def slotsTx (d : Dev) (p : Nat) : Bool :=
  [0, 1].all fun s => ! slotActive d p s || decide (rd d (pgPORT p) (stateFld s) = 1)

/-- OBS[p] under foreground calibration: converters 8 to 11. -/
def obsBusy (d : Dev) (p : Nat) : Bool := d.conv.running.any fun e => decide (e.1 = 8 + p)

/-- No sample would qualify for a capture (R286). -/
def frozen (d : Dev) (p : Nat) : Bool := decide (txState d p ≠ txON) || obsBusy d p || ! slotsTx d p

/-- ADAPT is in force. -/
def dpdAdapts (d : Dev) (p : Nat) : Bool :=
  decide (rd d (pgTX p) TX.DPD_CFG_MODE = 1) && ! rdB d (pgTX p) TX.DPD_STAT_DIVERGED && ! rdB d (pgTX p) TX.DPD_STAT_NO_ENGINE

def dpdW (d : Dev) (p : Nat) : List Nat := (List.range 128).map fun i => (reg d (pgTX p) (0x600 + 4 * i)).toNat
def setDpdW (d : Dev) (p : Nat) (l : List Nat) : Dev :=
  (List.range 128).foldl (fun d i => setReg d (pgTX p) (0x600 + 4 * i) (BitVec.ofNat 32 (l.getD i 0))) d
/-- The coefficients of mode OFF. -/
def dpdOff : List Nat := (List.range 128).map fun i => if i % 16 = 0 then 0x40000000 else 0

/-- One coefficient's step towards the solution, where it belongs to an active window, ORDER and MEM. -/
def dpdStep (d : Dev) (p i w : Nat) (ls : Int × Int) : Nat :=
  let pg := pgTX p
  if nbit (rd d (pgPORT p) PORT.BAND_STAT_ACTIVE) (i / 16) ∧ i / 4 % 4 ≤ rd d pg TX.DPD_CFG_ORDER
      ∧ i % 4 ≤ rd d pg TX.DPD_CFG_MEM then
    let mu := rd d pg TX.DPD_CFG_MU
    u16 (tapStep mu (s16 (w / 65536)) ls.1) * 65536 + u16 (tapStep mu (s16 w) ls.2)
  else w

/-- A capture ends; `kept`: half its length is left; `ls` is the least-squares solution. -/
def dpdCapture (d : Dev) (p : Nat) (nmse : Int) (kept : Bool) (ls : List (Int × Int)) : Dev :=
  if ¬ dpdAdapts d p ∨ frozen d p ∨ ¬ kept then d
  else
    let c := chainRt d p
    let worse : Bool := c.judged && (match c.nmse with | some o => decide (o + 20 < nmse) | none => false)
    let d := wrS d (pgTX p) TX.DPD_STAT_NMSE nmse
    if worse then modChain d p fun c => { c with nmse := some nmse, judged := false, next := some (c.before, true), nextAt := d.devLoop }
    else
      let w := dpdW d p
      let new := (List.range 128).map fun i => dpdStep d p i (w.getD i 0) (ls.getD i (0, 0))
      let d := if c.judged then wr d (pgTX p) TX.DPD_STAT_REVERT_RUN 0 else d
      modChain d p fun c => { c with nmse := some nmse, judged := false, next := some (new, false), nextAt := dueLatch d }

/-- A commit of the TX page takes effect at a permitted latch (R285). -/
def txCommit (p : Nat) (d : Dev) : Dev :=
  let pg := pgTX p
  if ¬ (hdr d pg).pending ∨ ¬ slotsTx d p then d
  else
    let was := rd d pg TX.DPD_CFG_MODE
    let d := commitApplied ((0x60 :: (List.range 128).map fun i => 0x400 + 4 * i).foldl (takeShadow pg) d) pg
    let mode := rd d pg TX.DPD_CFG_MODE
    let d := wr (wr d pg TX.DPD_STAT_DIVERGED 0) pg TX.DPD_STAT_REVERT_RUN 0
    let d := if was = mode then d else modChain d p fun c => { c with judged := false, next := none }
    if mode = 0 ∨ (mode = 1 ∧ was = 0) then setDpdW d p dpdOff
    else if mode = 3 then setDpdW d p ((List.range 128).map fun i => (reg d pg (0x400 + 4 * i)).toNat)
    else d

/-- Three reverts in a row: DIVERGED. -/
def dpdDiverge (d : Dev) (p : Nat) : Dev :=
  if rd d (pgTX p) TX.DPD_STAT_REVERT_RUN < 3 then d
  else raiseTally (corrected (wr d (pgTX p) TX.DPD_STAT_DIVERGED 1) (76 + p) false) (pgTX p) 4

/-- New or restored coefficients take effect at a permitted latch (R287). -/
def dpdApply (d : Dev) (p : Nat) : Dev :=
  let d := txCommit p d
  match (chainRt d p).next with
  | none => d
  | some (l, back) =>
    if ¬ dpdAdapts d p ∨ frozen d p ∨ d.devLoop + 1 < (chainRt d p).nextAt then d
    else
      let was := dpdW d p
      let d := modChain (setDpdW d p l) p fun c => { c with next := none, before := was, judged := ! back }
      if back then
        dpdDiverge (wr (bump d (pgTX p) TX.TX_CNT_REVERTS) (pgTX p) TX.DPD_STAT_REVERT_RUN
          (min 3 (rd d (pgTX p) TX.DPD_STAT_REVERT_RUN + 1))) p
      else bump d (pgTX p) TX.TX_CNT_UPDATES

/-! Back-off (R276 to R278) -/

def limEff (d : Dev) (p : Nat) : Int :=
  let w := if rdB d (pgTX p) TX.TX_STAT_LOAD_WARN then 60 else 0
  let x := if rdB d (pgEMK p) EMK.EM_STAT_UNAVAILABLE then 60 else 0
  min (rdS d (pgTX p) TX.PWR_LIM_LIMIT) (ratedNow d p) - w - x

/-- R277: the back-off that phase 25.00 µs applies. -/
def nextBackoff (now target rel : Nat) : Nat := if now < target then target else max target (now - rel)

/-- R278 after a period whose forward power was compared. -/
def obsCompare (d : Dev) (p : Nat) (diff : Int) : Dev :=
  let a := diff.natAbs
  let d := modChain d p fun c => { c with mismatchRun := if 40 < a then c.mismatchRun + 1 else 0,
                                          matchRun := if a ≤ 30 then c.matchRun + 1 else 0 }
  let c := chainRt d p
  let set := rdB d (pgTX p) TX.TX_STAT_OBS_MISMATCH
  if ¬ set ∧ 100 ≤ c.mismatchRun then
    raiseTally (corrected (wr d (pgTX p) TX.TX_STAT_OBS_MISMATCH 1) (72 + p) true) (pgTX p) 3
  else if set ∧ 100 ≤ c.matchRun then endCause (wr d (pgTX p) TX.TX_STAT_OBS_MISMATCH 0) (72 + p)
  else d

/-- Phase 0.00 µs of a port: `pre` is the composite without back-off, `fwd` what OBS measured in the period before, none
in a period of the reflected coupler or of calibration. -/
def txLatch (pre : Int) (fwd : Option Int) (p : Nat) (d : Dev) : Dev :=
  let pg := pgTX p
  let d := txCommit p d
  let lim := limEff d p
  let d := wrS (wrS d pg TX.PWR_STAT_PRE pre) pg TX.PWR_EFF_LIM_EFF lim
  let bo := rd d pg TX.PWR_STAT_BACKOFF
  let d := modChain d p fun c => { c with boNext := nextBackoff bo (pre - lim).toNat (rd d pg TX.PWR_LIM_REL_RATE) }
  let d := wrB d pg TX.DPD_STAT_FROZEN (frozen d p)
  match fwd with
  | none => modChain d p fun c => { c with mismatchRun := 0, matchRun := 0 }
  | some f =>
    let d := modChain (wrS d pg TX.PWR_EFF_FWD f) p fun c => { c with fwd := f }
    if 400 ≤ pre - bo then obsCompare d p (f - (pre - bo))
    else modChain d p fun c => { c with mismatchRun := 0, matchRun := 0 }

/-- Phase 25.00 µs of a port. -/
def txGain (p : Nat) (d : Dev) : Dev :=
  aimBack (wr d (pgTX p) TX.PWR_STAT_BACKOFF (chainRt d p).boNext) p (-((chainRt d p).boNext : Int))

/-! Emission (R289 to R291) -/

/-- The shadow mask keeps R290. -/
def maskOk (d : Dev) (p : Nat) : Bool :=
  let n := rdSh d (pgEMK p) EMK.EM_NPTS_NPTS
  let f (k : Nat) := rdSh d (pgEMK p) (EMK.EMK_FREQ_FREQ k)
  decide (n ≤ 32) && (List.range n).all fun k =>
    decide (617 * mhz ≤ f k ∧ f k ≤ 4200 * mhz) && (decide (k = 0) || decide (f (k - 1) < f k))

def emkCommit (d : Dev) (p : Nat) : Dev :=
  let pg := pgEMK p
  if ¬ (hdr d pg).pending then d
  else if maskOk d p then
    commitApplied ((0x54 :: ((List.range 32).map fun k => [0x100 + 8 * k, 0x104 + 8 * k]).flatten).foldl (takeShadow pg) d) pg
  else raise (setError (modHdr d pg fun h => { h with pending := false, refused := true }) pg 0x20) pg 1

/-- A sweep begins, with a pending commit. -/
def sweepStart (d : Dev) (p : Nat) : Dev :=
  if txState d p = txON ∧ rdB d (pgEMK p) EMK.EM_CFG_EN = true ∧ rdB d (pgEMK p) EMK.EM_STAT_UNAVAILABLE = false then
    modChain (emkCommit d p) p fun c => { c with sweeping := true }
  else d

/-- A sweep ends: `margin` is the worst LIM − bin, none where no bin is checked; `freq` the bin's frequency. -/
def sweepDone (d : Dev) (p : Nat) (margin : Option Int) (freq : Nat) : Dev :=
  let pg := pgEMK p
  if ¬ (chainRt d p).sweeping then d
  else
    let tol := rdS d pg EMK.EM_LVL_TOL
    let viol := match margin with | some m => decide (m < -tol) | none => false
    let clean := match margin with | some m => decide (rdS d pg EMK.EM_LVL_HYST - tol ≤ m) | none => true
    let n := if viol then min 15 (rd d pg EMK.EM_STAT_VCOUNT + 1) else 0
    let d := wrB (wr (wrS d pg EMK.EM_STAT_MARGIN (margin.getD (-32768))) pg EMK.EM_STAT_VCOUNT n) pg EMK.EM_STAT_VIOL viol
    let d := wr (incr d pg EMK.EM_STAT_SWEEPS) pg EMK.EM_STAT_VALID 1
    let d := if margin.isSome then wr d pg EMK.EM_WORST_FREQ freq else d
    let d := modChain d p fun c => { c with sweeping := false, cleanRun := if clean then c.cleanRun + 1 else 0 }
    let cnt := rd d pg EMK.EM_CFG_CNT
    let d := if viol then raise d pg 0 else d
    let c := chainRt d p
    if cnt ≤ n ∧ c.emission = false then npRaise (modChain d p fun c => { c with emission := true }) 5 p
    else if cnt ≤ c.cleanRun ∧ c.emission = true then npEnd (modChain d p fun c => { c with emission := false }) 5 p
    else d

/-! The monitor's burst time-out (R328) -/

/-- A burst not complete 1 ms after its request ends FAILED: of a chain, the bias has failed; of a calibration, it ends
FAILED. -/
def monTimeout (d : Dev) : Dev :=
  match d.mon.bursts with
  | [] => d
  | b :: t =>
    if 256 ≤ b.n then d
    else
      let d := modMon d fun m => { m with bursts := t }
      match b.who with
      | .chain p => if txState d p = txBIASING then biasFail d p else d
      | .zero _ => calOutcome (modMon d fun m => { m with zero := none }) 5 2
      | .full _ => calOutcome (modMon d fun m => { m with zero := none }) 5 2

end Sys2Proof.Machine
end

