-- ==== Sys2Proof/Machine/Air.lean ====
section
/-!
DEFINITION. Air clocks, the references, the scheduler's actions, frame boundaries and timing steps, the T/R switches and the
segment gates (R31, R46 to R48, R115 to R145).
-/

namespace Sys2Proof.Machine

/-! References (R31, R125, R126) -/

/-- The first available reference: air clock 0, J13, the oscillator. -/
def refAvail (d : Dev) : Nat :=
  if ckState d 0 = ckLOCKED then 0
  else if rdB d (pgAIR 0) AIR.REF_CFG_J13_EN ∧ rdB d (pgAIR 0) AIR.REF_STAT_J13_PRESENT then 1 else 2

/-- The reference in use changes: INT_RAW bit 6 and a Tally record. -/
def refreshRef (d : Dev) : Dev :=
  if rd d (pgAIR 0) AIR.REF_STAT_SOURCE = refAvail d then d
  else raiseTally (wr d (pgAIR 0) AIR.REF_STAT_SOURCE (refAvail d)) (pgAIR 0) 6

/-- LOOP_ALIGNED: air clock 0 LOCKED and the misalignment within one air tick. -/
def refreshAligned (d : Dev) : Dev :=
  let b := decide (ckState d 0 = ckLOCKED ∧ (rdS d (pgAIR 0) AIR.LOOP_OFFS_OFFS).natAbs ≤ 1)
  if rdB d (pgAIR 0) AIR.REF_STAT_LOOP_ALIGNED = b then d
  else raise (wrB d (pgAIR 0) AIR.REF_STAT_LOOP_ALIGNED b) (pgAIR 0) 7

/-- The synthesizer follows the first available reference; `offs` is its frequency offset once it has moved. -/
def refChange (d : Dev) (offs : Int) : Dev := refreshRef (wrS d (pgAIR 0) AIR.REF_STAT_FREQ_OFFS offs)

/-- J13 becomes valid or invalid for the type that J13_TYPE selects. -/
def j13Change (d : Dev) (valid : Bool) : Dev := refreshRef (wrB d (pgAIR 0) AIR.REF_STAT_J13_PRESENT valid)

/-! Clock states -/

/-- The active TDD segments of a clock. -/
def tddSegs (d : Dev) (c : Nat) : List Nat := d.act.filter fun n => isActive d n && isTdd d n && decide (clockOf d n = c)

/-- STATE changes: INT_RAW bit 1; the switches' holds and the reference follow. -/
def setClk (d : Dev) (c st : Nat) : Dev :=
  if ckState d c = st then d
  else
    let d := refreshHolds (raise (wr d (pgAIR c) AIR.CLK_STAT_STATE st) (pgAIR c) 1)
    if c = 0 then refreshRef (refreshAligned d) else d

/-- The switches of head branches that TDD segments of a clock use go to receive. -/
def headsRx (d : Dev) (c : Nat) : Dev :=
  forEach (tddSegs d c) (fun n d =>
    match tddSlot d (defOf d n) with
    | some s => forEach (defOf d n).heads (fun b d => headSwitch b s false 0 d) d
    | none => d) d

/-- The TDD segments of a clock are muted, the switches of their head branches go to receive, and SYNC_LOST_TDD is raised
(R130, R140). The engine ports' switches follow HOLD. -/
def loseTdd (d : Dev) (c : Nat) : Dev :=
  let d := headsRx (modAir d c fun a => { a with lostMode := true, lifted := [], lockedRun := 0 }) c
  forEach (tddSegs d c) (fun n d => npRaise d 7 n) d

/-- The mute stands no longer once it has lifted for every TDD segment of the clock. -/
def tidyLost (d : Dev) (c : Nat) : Dev :=
  let a := airRt d c
  if a.lostMode ∧ ckState d c = ckLOCKED ∧ 8 ≤ a.lockedRun ∧ ((tddSegs d c).all fun n => a.lifted.contains n) then
    modAir d c fun a => { a with lostMode := false, lifted := [] }
  else d

/-- The least SNR for lock (Table 5.2). -/
def lockSnr (rat : Nat) : Int := if rat = 0 then -60 else if rat = 1 then -240 else -120

/-! The scheduler's actions (R132, R133) -/

/-- The action runs now (Table 5.4): under REF 1 after the switching action it names; under REF 0 on the frame in progress,
in which it has not run before (R129). -/
def actFrame (d : Dev) (c i : Nat) : Bool :=
  let p := pgAIR c
  let f := rd d p AIR.FRAME_NOW_FRAME
  let want := rd d p (AIR.ACT_CTL_FRAME i)
  let rep := rd d p (AIR.ACT_CTL_REPEAT i)
  if rdB d p (AIR.ACT_TIME_REF i) then d.sched.armed.contains (c, i)
  else ! (airRt d c).ran.contains i
    && (if rep = 0 then decide (f = want) && ! (airRt d c).onceRun.contains i
        else if rep = 1 then true
        else
          let m := 2 ^ rd d p (AIR.ACT_CTL_EXP i)
          decide (f % m = want % m))
def actDue (d : Dev) (c i : Nat) : Bool := rdB d (pgAIR c) (AIR.ACT_TIME_EN i) && actFrame d c i

/-- An action is taken up: it does not run again in the frame, or for the switching action it followed. -/
def actOnce (d : Dev) (c i : Nat) : Dev :=
  if rdB d (pgAIR c) (AIR.ACT_TIME_REF i) then { d with sched := { d.sched with armed := d.sched.armed.erase (c, i) } }
  else modAir d c fun a =>
    { a with ran := insertNat i a.ran,
             onceRun := if rd d (pgAIR c) (AIR.ACT_CTL_REPEAT i) = 0 then insertNat i a.onceRun else a.onceRun }

/-- A HOST_EVENT item (Table 14.6). -/
def hostEvent (d : Dev) (c arg : Nat) : Dev :=
  putItem d (qSeg (arg % 1024) 6) 0x30 2
    [(c, 4), (0, 2), (rd d (pgAIR c) AIR.FRAME_NOW_FRAME, 10), (rd d (pgAIR c) AIR.FRAME_NOW_HYPER, 16), (arg, 16)]

/-- The effect of an action (Table 5.5). -/
def actEffect (d : Dev) (m : Mem) (c i : Nat) (x : ActInput) : Dev × Mem :=
  let arg := rd d (pgAIR c) (AIR.ACT_CTL_ARG i)
  let t := rd d (pgAIR c) (AIR.ACT_TIME_TYPE i)
  if t = 0 then (hostEvent d c arg, m)
  else if t = 1 then (monTrig d 1, m)
  else if t = 2 then (if arg < 32 then capStart d arg x.offs else d, m)
  else if t = 3 then
    (if arg < 32 then capStop d m arg (((x.samples.find? fun e => decide (e.1 = arg)).map (·.2)).getD []) else (d, m))
  else if t = 4 then ({ d with sched := { d.sched with windows := insertNat arg d.sched.windows } }, m)
  else if t = 5 then ({ d with sched := { d.sched with windows := d.sched.windows.filter (· ≠ arg) } }, m)
  else if t = 6 then (soundStart d arg, m)
  else (d, m)

/-- Deferred actions run, eight in each device tick from the one after the last up to `tick`, and take that tick's places
(R133). -/
def runDeferred (s : Dev × Mem) (tick : Nat) : Dev × Mem :=
  let sc := s.1.sched
  if sc.tick = tick then s
  else
    let n := min sc.deferred.length (8 * (tick - sc.tick))
    let d := { s.1 with sched := { sc with tick := tick, ran := n - min n (8 * (tick - sc.tick - 1)),
                                           deferred := sc.deferred.drop n } }
    (sc.deferred.take n).foldl (fun s e => actEffect s.1 s.2 e.1 e.2.1 e.2.2) (d, s.2)

/-- What is still deferred has run by the next latch: a device tick is far shorter than a loop period (log entry 34). -/
def drainDeferred (d : Dev) (m : Mem) : Dev × Mem :=
  d.sched.deferred.foldl (fun s e => actEffect s.1 s.2 e.1 e.2.1 e.2.2) ({ d with sched := { d.sched with deferred := [] } }, m)

/-- An action takes one of the eight places of its device tick; one beyond the eighth is deferred and counted. -/
def actRun (c : Nat) (x : ActInput) (s : Dev × Mem) (i : Nat) : Dev × Mem :=
  let s := runDeferred s x.tick
  let d := actOnce s.1 c i
  if d.sched.ran < 8 then actEffect { d with sched := { d.sched with ran := d.sched.ran + 1 } } s.2 c i x
  else (raise (bump { d with sched := { d.sched with deferred := d.sched.deferred ++ [(c, i, x)] } } (pgAIR c)
    AIR.SCHED_CNT_LATE) (pgAIR c) 3, s.2)

/-- An action of a type runs at its tick; those of tick 0 run with the boundary (R134). -/
def actCmd (t : Nat) (d : Dev) (m : Mem) (c i : Nat) (x : ActInput) : Dev × Mem :=
  let p := pgAIR c
  if actDue d c i ∧ rd d p (AIR.ACT_TIME_TYPE i) = t
      ∧ (rdB d p (AIR.ACT_TIME_REF i) = true ∨ rd d p (AIR.ACT_TIME_TICK i) ≠ 0) then actRun c x (d, m) i
  else (d, m)

/-! AIR commits (R115, R116, R132, R136 to R140) -/

/-- The offsets of a segment's pattern record. -/
def patRegs : List Nat := 0x84 :: (List.range 16).map fun r => 0x88 + 4 * r
def actRegs : List Nat := ((List.range 256).map fun i => [0x800 + 8 * i, 0x804 + 8 * i]).flatten

/-- R115 for the shadow's source. -/
def srcOk (d : Dev) (c : Nat) : Bool :=
  let sh := rdSh d (pgAIR c)
  let p := sh AIR.SRC_CFG_PORT
  let f := sh AIR.SRC_FREQ_FREQ
  decide (sh AIR.SRC_CFG_EN = 0) || (List.range 8).any fun q =>
    nbit (rd d (pgPORT p) PORT.BAND_STAT_ACTIVE) q
      && (match dirRange d.part.set q false with
          | some (lo, hi) => decide (lo * mhz ≤ f ∧ f ≤ hi * mhz)
          | none => false)

/-- The register that an enabled action breaks a rule in. -/
def actBad (d : Dev) (c i : Nat) : List Nat :=
  let sh := rdSh d (pgAIR c)
  let tick := sh (AIR.ACT_TIME_TICK i)
  if sh (AIR.ACT_TIME_EN i) = 0 then []
  else
    (if 7 ≤ sh (AIR.ACT_TIME_TYPE i) ∨ (if sh (AIR.ACT_TIME_REF i) = 0 then 307200 ≤ tick else 65535 < tick)
      then [0x800 + 8 * i] else [])
    ++ (if sh (AIR.ACT_CTL_REPEAT i) = 3 ∨ 10 < sh (AIR.ACT_CTL_EXP i) then [0x804 + 8 * i] else [])

/-- A segment's record once the commit has been applied. -/
def postPat (d : Dev) (c n : Nat) : Pattern := if (airRt d c).wrotePat.contains n then patSh d n else patOf d n

/-- R140: the active TDD segments that share a switch keep one record. -/
def patsAgree (d : Dev) (c : Nat) : Bool :=
  (airRt d c).wrotePat.all fun n =>
    ! (isActive d n && isTdd d n)
      || (sharers d n).all fun m => decide (postPat d c m = postPat d c n)

/-- The registers of an AIR page that break a rule. -/
def airErrs (d : Dev) (c : Nat) : List Nat :=
  (if srcOk d c then [] else [0x44])
    ++ (List.range 256).flatMap (actBad d c)
    ++ (if (airRt d c).patSegs.all fun n => (patSh d n).valid (rdSh d (pgAIR c) AIR.SRC_CFG_RAT) then [] else [0x84])
    ++ (if patsAgree d c then [] else [0x84])

/-- An enabled clock changes its source (R116). -/
def srcChanged (old d : Dev) (c : Nat) : Bool :=
  let p := pgAIR c
  [AIR.SRC_CFG_RAT, AIR.SRC_CFG_PORT, AIR.SRC_CFG_SSB_SCS, AIR.SRC_FREQ_FREQ].any (fun f => decide (rd old p f ≠ rd d p f))
    || (rdB d p AIR.SRC_CFG_CELL_EN && decide (rd d p AIR.SRC_CFG_CELL ≠ rd d p AIR.CLK_STAT_CELL_FOUND))

/-- The clock is enabled: SEARCH, its counters from 0 (R119 to R121). -/
def clkEnable (d : Dev) (c : Nat) : Dev :=
  let p := pgAIR c
  let d := wr (wr (wr d p AIR.FRAME_NOW_HYPER 0) p AIR.FRAME_NOW_FRAME 0) p AIR.CLK_STAT_SFN_KNOWN 0
  let d := modAir d c fun a => { a with pendFrame := none, gsm := none, srcChange := false, slew := 0, lockedRun := 0,
                                        ran := [], ranPrev := [], ranNext := [], tick := 0 }
  setClk (refreshHolds d) c ckSEARCH

/-- The clock is disabled. -/
def clkDisable (d : Dev) (c : Nat) : Dev :=
  setClk (modAir (wr d (pgAIR c) AIR.CLK_STAT_HOLD_LEFT 0) c fun a =>
    { a with pendFrame := none, slew := 0, lockedRun := 0, srcChange := false }) c ckDISABLED

/-- A source change returns the clock to SEARCH on its last timing, its TDD segments muted as in LOST (R116). -/
def clkResource (d : Dev) (c : Nat) : Dev :=
  let d := modAir (wr d (pgAIR c) AIR.CLK_STAT_HOLD_LEFT 0) c fun a =>
    { a with srcChange := true, pendFrame := none, slew := 0,
             gsm := if rd d (pgAIR c) AIR.SRC_CFG_RAT = 0 then a.gsm else none }
  loseTdd (setClk d c ckSEARCH) c

/-- An AIR commit takes effect (step 1 of R134). -/
def airApply (d : Dev) (c : Nat) : Dev :=
  let p := pgAIR c
  let old := d
  let a := airRt d c
  let st := ckState d c
  let d := [0x40, 0x44].foldl (takeShadow p) d
  let d := if a.wroteAct then modAir (actRegs.foldl (takeShadow p) d) c fun a => { a with onceRun := [], ran := [] } else d
  let d := a.wrotePat.foldl (fun d n => patRegs.foldl (takeShadow (pgPAT n)) d) d
  let d := modAir (commitApplied d p) c fun a => { a with wroteAct := false, wrotePat := [] }
  let en0 := rdB old p AIR.SRC_CFG_EN
  let en1 := rdB d p AIR.SRC_CFG_EN
  let d :=
    if en0 ∧ ¬ en1 then clkDisable d c
    else if en1 ∧ ¬ en0 then clkEnable d c
    else if en1 ∧ srcChanged old d c ∧ (st = ckLOCKED ∨ st = ckHOLDOVER ∨ st = ckLOST) then clkResource d c
    else d
  refreshShorts d

/-! Boundaries (R120, R121, R134, R135, R304) -/

/-- A page commits with a head: the longer cutoff (R304). -/
def cutoff (d : Dev) (page : Nat) : Nat :=
  match kindOf page with
  | (.seg, n) => if (defSh d n).heads ≠ [] ∨ ((defOf d n).active ∧ (defOf d n).heads ≠ []) then 2048 else 64
  | (.air, c) => if (tddSegs d c).any fun n => decide ((defOf d n).heads ≠ []) then 2048 else 64
  | _ => 64

/-- The air ticks between a commit request and the boundary, where they are fewer than a frame's 307,200. -/
def lateOf (d : Dev) (page : Nat) : Nat := tget (fun _ => 307200) d.sched.late page
def setLate (d : Dev) (page v : Nat) : Dev :=
  { d with sched := { d.sched with late := tset (fun _ => 307200) d.sched.late page (min 307200 v) } }
/-- The request came early enough for a boundary, or for a step that passes it `left` air ticks ahead of its time (R135). -/
def takenAt (d : Dev) (left page : Nat) : Bool :=
  decide (lateOf d page = 307200) || decide (cutoff d page + left ≤ lateOf d page)

/-- The pages that a boundary of clock c is a boundary of. -/
def pageAt (d : Dev) (c page : Nat) : Bool :=
  match kindOf page with
  | (.seg, n) => decide (commitClock d n = c)
  | (.loop, n) => decide (commitClock d n = c)
  | (.air, k) => decide (k = c)
  | _ => false
def clearLate (d : Dev) (c : Nat) : Dev :=
  forEach ((d.sched.late.map (·.1)).filter (pageAt d c)) (fun page d => setLate d page 307200) d

/-- The commits of a boundary of clock c (steps 1 and 2 of R134), then COMMIT_SEQ and the items. `left`: the air ticks that
a step takes off before the boundary. -/
def boundaryCommits (d : Dev) (c left : Nat) : Dev :=
  let pg := pgAIR c
  let own : Bool := (hdr d pg).pending && takenAt d left pg
  let pats := (airRt d c).wrotePat
  let bad := if own then (airErrs d c).min? else none
  let late := d
  let d0 := if own ∧ bad.isNone then airApply d c else d
  let v := verdict d0 c (takenAt late left)
  let any : Bool := (own && bad.isNone) || decide (v.segs ≠ []) || decide (v.loops ≠ [])
  let d1 := if any then wr (incr d0 pg AIR.SCHED_STAT_COMMIT_SEQ) pg AIR.SCHED_STAT_LAST_FRAME (rd d0 pg AIR.FRAME_NOW_FRAME) else d0
  let seq := rd d1 pg AIR.SCHED_STAT_COMMIT_SEQ
  let d2 :=
    match bad with
    | some off => pats.foldl (fun d n => itemRefused d n pg off) (commitRefused d1 pg)
    | none => if own then pats.foldl (fun d n => itemDone d n pg seq) d1 else d1
  let d3 := applyVerdict d2 c seq v
  refreshShorts (clearLate d3 c)

/-- FRAME is loaded from the air: the first load sets the pattern phase (R139). -/
def loadFrame (d : Dev) (c f : Nat) : Dev :=
  let p := pgAIR c
  let first := ! rdB d p AIR.CLK_STAT_SFN_KNOWN
  let d := wr (wr d p AIR.FRAME_NOW_FRAME f) p AIR.CLK_STAT_SFN_KNOWN 1
  if first then refreshHolds (modAir d c fun a => { a with patPhase := if f % 2 = 0 then 0 else 307200 }) else d

/-- The air tick of a multiframe at which TDMA frame j begins, and timeslot t of frame j, ties upwards (R122). -/
def gsmFrameStart (j : Nat) : Nat := (2 * j * 3686400 + 26) / 52
def gsmSlotStart (j t : Nat) : Nat := (2 * (8 * j + t) * 3686400 + 208) / 416
/-- The TDMA frame in progress `tick` air ticks into the 10 ms frame t of a GSM clock, 12 x multiframe + k (R122). -/
def gsmFn (t tick : Nat) : Nat :=
  (26 * (t / 12) + ((List.range 26).filter fun j => decide (1 ≤ j ∧ gsmFrameStart j ≤ t % 12 * 307200 + tick)).length) % 2715648
/-- 10 ms frames of the hyperframe of 2,715,648 TDMA frames. -/
def gsmFrames : Nat := 1253376

/-- `gsm` names the frame that the next boundary begins: the frame in progress is the one before. GSM_FN follows the time. -/
def gsmShow (d : Dev) (c : Nat) : Dev :=
  match (airRt d c).gsm with
  | none => d
  | some t =>
    if rdB d (pgAIR c) AIR.CLK_STAT_SFN_KNOWN then
      wr d (pgAIR c) AIR.GSM_FN_FN (gsmFn ((t + gsmFrames - 1) % gsmFrames) (airRt d c).tick)
    else d
def gsmTick (d : Dev) (c : Nat) : Dev :=
  match (airRt d c).gsm with
  | none => d
  | some t => gsmShow (modAir d c fun a => { a with gsm := some ((t + 1) % gsmFrames) }) c

/-- A loop period of the clocks: 960 air ticks within the frame, and GSM_FN. -/
def clkTick (c : Nat) (d : Dev) : Dev := gsmShow (modAir d c fun a => { a with tick := min 307199 (a.tick + 960) }) c
def clkTicks (d : Dev) : Dev := forEach (d.airs.map (·.1)) clkTick d

/-- The counters at a boundary. Where a frame number read from the air is loaded, HYPER does not count, even if FRAME would
have passed to 0 (R121; DESIGN CHOICE, log entry 34). LOCKED frames are counted by the boundaries since the lock, so the
frame in progress at the lock is the first of R131's eight (DESIGN CHOICE, log entry 34). -/
def boundaryCount (d : Dev) (c : Nat) : Dev :=
  let p := pgAIR c
  let d :=
    match (airRt d c).pendFrame with
    | some f => modAir (loadFrame d c f) c fun a => { a with pendFrame := none }
    | none =>
      let f := rd d p AIR.FRAME_NOW_FRAME
      wr (if f = 1023 then incr d p AIR.FRAME_NOW_HYPER else d) p AIR.FRAME_NOW_FRAME ((f + 1) % 1024)
  let d := if ckState d c = ckHOLDOVER then wr d p AIR.CLK_STAT_HOLD_LEFT (rd d p AIR.CLK_STAT_HOLD_LEFT - 1) else d
  let locked := decide (ckState d c = ckLOCKED)
  tidyLost (gsmTick (modAir d c fun a =>
    { a with lockedRun := if locked then a.lockedRun + 1 else 0, tick := 0, ranPrev := a.ran, ran := a.ranNext, ranNext := [],
             slew := if 0 < a.slew then a.slew - 1 else if a.slew < 0 then a.slew + 1 else 0 }) c) c

/-- What a LOCKED clock has measured over the frame. -/
def boundaryMeasure (d : Dev) (c : Nat) (m : ClkMeas) : Dev :=
  let p := pgAIR c
  if ckState d c ≠ ckLOCKED then d
  else
    let d := wrS (wrS d p AIR.SYNC_QUAL_SNR m.snr) p AIR.SYNC_QUAL_RATE m.rate
    if c = 0 then refreshAligned (wrS d p AIR.LOOP_OFFS_OFFS m.offs) else d

/-- The enabled actions of TICK 0 under REF 0 that the frame selects, in ascending index. -/
def tick0 (d : Dev) (c : Nat) : List Nat :=
  (List.range 256).filter fun i =>
    actDue d c i && ! rdB d (pgAIR c) (AIR.ACT_TIME_REF i) && decide (rd d (pgAIR c) (AIR.ACT_TIME_TICK i) = 0)

/-- SF_ALIGNED of a link: its timing equals the aligned value (R297). -/
def refreshSf (k : Nat) (d : Dev) : Dev :=
  let b := decide (rd d (pgEXT k) EXT.EXT_STAT_STATE ≠ 0) && decide (d.sfPhase = some (extRt d k).sf)
  wrB d (pgEXT k) EXT.EXT_STAT_SF_ALIGNED b
/-- A boundary of air clock 0, LOCKED and aligned, gives the superframe phase: that of the loop period it begins with,
whose latch may follow the boundary. -/
def sfAlign (d : Dev) : Dev :=
  if ckState d 0 = ckLOCKED ∧ rdB d (pgAIR 0) AIR.REF_STAT_LOOP_ALIGNED then
    forEach ports4 refreshSf { d with sfPhase := some ((if d.written then d.devLoop + 1 else d.devLoop) % 320) }
  else d

/-- A frame boundary of clock c. -/
def airBoundary (d : Dev) (m : Mem) (c : Nat) (x : ClkMeas) (a : ActInput) : Dev × Mem :=
  let (d, m) := runDeferred (d, m) a.tick
  let d := boundaryMeasure (boundaryCount (modAir d c fun a => { a with edge := (307200 - a.tick) % 960 }) c) c x
  let d := if c = 0 then sfAlign d else d
  let d := boundaryCommits d c 0
  (tick0 d c).foldl (actRun c a) (d, m)

/-! Timing steps (R129) -/

/-- A skipped action runs at the step. -/
def actStep (c : Nat) (x : ActInput) (s : Dev × Mem) (i : Nat) : Dev × Mem :=
  if actDue s.1 c i then
    let r := actRun c x s i
    (bump r.1 (pgAIR c) AIR.SCHED_CNT_STEPPED, r.2)
  else s

/-- TDD segments of the clock are gated, their switches in receive. -/
def stepTdd (d : Dev) (c : Nat) : Dev :=
  let d := modAir d c fun a => { a with stepGate := true }
  let d := forEach (tddSegs d c) (fun n d => modSeg d n fun s => { s with gated := true, dirty := true, toneBad := true }) d
  let d := forEach ports4 (fun p d => forEach [0, 1] (fun s d =>
    if slotActive d p s ∧ slotClock d p s = c ∧ forceOf d p s = 0 then switchRx p s d else d) d) d
  headsRx d c

/-- The frame numbers of a GSM clock move with a step. -/
def gsmStep (d : Dev) (c was f : Nat) : Dev :=
  match (airRt d c).gsm with
  | none => d
  | some t =>
    let back := decide (512 ≤ (f + 1024 - was) % 1024)
    let by' := (f + 1024 - was) % 1024
    modAir d c fun a => { a with gsm := some ((if back then t + gsmFrames + by' - 1024 else t + by') % gsmFrames) }

def stepFrame (d : Dev) (c : Nat) (f : Option (Fin 1024)) : Dev :=
  match f with
  | none => d
  | some f => gsmStep (if rdB d (pgAIR c) AIR.CLK_STAT_SFN_KNOWN then loadFrame d c f
      else wr d (pgAIR c) AIR.FRAME_NOW_FRAME f) c (rd d (pgAIR c) AIR.FRAME_NOW_FRAME) f

/-- A frame number awaited from before a step belongs to the old timing where the step loads one or passes a boundary. -/
def stepPend (d : Dev) (c : Nat) (x : StepInput) : Dev :=
  if x.crossed ∨ x.frame.isSome then modAir d c fun a => { a with pendFrame := none } else d

/-- A step of e air ticks: forwards where e is positive. After a step back over a boundary the frame before is in progress
again, and what ran after the boundary does not run again behind it; a commit that took effect there is pending no longer
(R129). -/
def timingStep (d : Dev) (m : Mem) (c : Nat) (x : StepInput) : Dev × Mem :=
  let p := pgAIR c
  let d := raise (bump (wrS d p AIR.STEP_INFO_LAST_STEP x.e) p AIR.STEP_INFO_STEP_CNT) p 2
  let d := stepTdd (modAir d c fun a => { a with slew := 0, tick := ((a.tick + x.e) % 307200).toNat }) c
  if 0 < x.e then
    let (d, m) := (x.before.map Fin.val).foldl (actStep c x.act) (d, m)
    let d := stepPend (stepFrame d c x.frame) c x
    let d := if x.crossed then
      boundaryCommits (modAir d c fun a => { a with ranPrev := a.ran, ran := a.ranNext, ranNext := [] }) c x.left else d
    (x.after.map Fin.val).foldl (actStep c x.act) (d, m)
  else
    let d := stepPend (stepFrame d c x.frame) c x
    (if x.crossed then modAir d c fun a => { a with ranNext := a.ran, ran := a.ranPrev, ranPrev := [] } else d, m)

/-- A phase error of at most 4 air ticks is removed by slewing. -/
def slewBy (d : Dev) (c : Nat) (e : Int) : Dev := modAir d c fun a => { a with slew := e }

/-! Lock, holdover, loss (R117, R119, R127, R128, R130, R131) -/

/-- LOCKED on a cell. -/
def clkLocked (d : Dev) (c cell : Nat) (snr : Int) : Dev :=
  let p := pgAIR c
  let d := wr (wr (wr d p AIR.CLK_STAT_CELL_FOUND cell) p AIR.CLK_STAT_EVER_LOCKED 1) p AIR.CLK_STAT_HOLD_LEFT 0
  let d := modAir (wrS d p AIR.SYNC_QUAL_SNR snr) c fun a => { a with lockedRun := 0, srcChange := false }
  setClk d c ckLOCKED

/-- The cell and the SNR let the clock lock. -/
def mayLock (d : Dev) (c cell : Nat) (snr : Int) : Bool :=
  let p := pgAIR c
  decide (lockSnr (rd d p AIR.SRC_CFG_RAT) ≤ snr)
    && (! rdB d p AIR.SRC_CFG_CELL_EN || decide (rd d p AIR.SRC_CFG_CELL = cell))

/-- Lock from SEARCH: a timing step, but for a small error on the same cell after a source change. -/
def airLock (d : Dev) (m : Mem) (c cell : Nat) (snr : Int) (x : StepInput) : Dev × Mem :=
  if ckState d c ≠ ckSEARCH ∨ ¬ mayLock d c cell snr then (d, m)
  else
    let relock := (airRt d c).srcChange && decide (rd d (pgAIR c) AIR.CLK_STAT_CELL_FOUND = cell)
    let d := clkLocked d c cell snr
    if relock ∧ x.e.natAbs ≤ 4 then (slewBy d c x.e, m) else timingStep d m c x

/-- Relock from HOLDOVER or LOST. -/
def airRelock (d : Dev) (m : Mem) (c cell : Nat) (snr : Int) (x : StepInput) : Dev × Mem :=
  let st := ckState d c
  let same := decide (rd d (pgAIR c) AIR.CLK_STAT_CELL_FOUND = cell)
  if ¬ ((st = ckHOLDOVER ∧ same = true) ∨ st = ckLOST) ∨ ¬ mayLock d c cell snr then (d, m)
  else
    let d := clkLocked d c cell snr
    if same ∧ x.e.natAbs ≤ 4 then (slewBy d c x.e, m) else timingStep d m c x

/-- A jump that two detections agree on, in LOCKED. -/
def airJump (d : Dev) (m : Mem) (c : Nat) (x : StepInput) : Dev × Mem :=
  if ckState d c ≠ ckLOCKED then (d, m)
  else if x.e.natAbs ≤ 4 then (slewBy d c x.e, m) else timingStep d m c x

def airHoldover (d : Dev) (c : Nat) : Dev :=
  if ckState d c ≠ ckLOCKED then d else setClk (wr d (pgAIR c) AIR.CLK_STAT_HOLD_LEFT 64) c ckHOLDOVER

/-- LOST at the boundary at which HOLD_LEFT has reached 0. -/
def airLost (d : Dev) (c : Nat) : Dev :=
  if ckState d c ≠ ckHOLDOVER ∨ rd d (pgAIR c) AIR.CLK_STAT_HOLD_LEFT ≠ 0 then d
  else loseTdd (raise (setClk d c ckLOST) (pgAIR c) 4) c

/-- The mute of R130 lifts for a segment at the start of its pattern period (R131). -/
def muteLift (d : Dev) (c n : Nat) : Dev :=
  let a := airRt d c
  if a.lostMode ∧ ckState d c = ckLOCKED ∧ 8 ≤ a.lockedRun ∧ (tddSegs d c).contains n then
    tidyLost (npEnd (modAir d c fun a => { a with lifted := insertNat n a.lifted }) 7 n) c
  else d

/-- The frame number has been read: SFN, or FN with k, of the frame that the next boundary begins (R121, R122). -/
def frameRead (d : Dev) (c num k : Nat) : Dev :=
  let rat := rd d (pgAIR c) AIR.SRC_CFG_RAT
  if ckState d c ≠ ckLOCKED then d
  else if rat = 0 then
    let t := (12 * (num / 26) + k) % gsmFrames
    modAir d c fun a => { a with pendFrame := some (t % 1024), gsm := some t }
  else modAir d c fun a => { a with pendFrame := some (num % 1024) }

/-- A read of FRAME_NOW at the clock's TICK. -/
def frameNow (d : Dev) (c tick : Nat) : Dev :=
  gsmShow (modAir (wr d (pgAIR c) AIR.TICK_LATCH_TICK tick) c fun a => { a with tick := tick }) c

/-- A read of DEV_LOOP_LO. -/
def devLoopRead (d : Dev) : Dev := { d with devHi := d.devLoop / 4294967296 % 4294967296 }

/-! Switches and gates (R46 to R48, R91, R129, R139 to R142) -/

/-- A switch's windows run: its clock knows the frame number and is not beyond holdover. -/
def clkDrives (d : Dev) (c : Nat) : Bool := rdB d (pgAIR c) AIR.CLK_STAT_SFN_KNOWN && ! beyondHold d c

/-- The gating of a step ends with the first pattern period that begins 307,200 air ticks after it. -/
def stepOver (d : Dev) (c period : Nat) : Dev :=
  if 307200 ≤ period then modAir d c fun a => { a with stepGate := false } else d

/-- A switching action to transmit lets every enabled action under REF 1 that names the switch run (Table 5.4). -/
def armActions (d : Dev) (w : Nat) : Dev :=
  let due := (List.range 16).flatMap fun c => ((List.range 256).filter fun i =>
    rdB d (pgAIR c) (AIR.ACT_TIME_EN i) && rdB d (pgAIR c) (AIR.ACT_TIME_REF i)
      && decide (rd d (pgAIR c) (AIR.ACT_CTL_FRAME i) % 8 = w)).map fun i => (c, i)
  { d with sched := { d.sched with armed := d.sched.armed ++ due } }

/-- A scheduled switching action on an engine port's or a head branch's slot. `period`: the air ticks between the clock's
last timing step and the start of the pattern period; `tick` is what a head is told. -/
def switchAction (d : Dev) (b s : Nat) (tx : Bool) (period tick : Nat) : Dev :=
  match onSlot d b s with
  | [] => d
  | n :: _ =>
    let c := clockOf d n
    if ¬ clkDrives d c ∨ patEmpty d n ∨ (tx = true ∧ period < 307200) then d
    else
      let d := stepOver d c period
      if 4 ≤ b then headSwitch b s tx tick (setTurn d b s (.tail 64))
      else if rdB d (pgPORT b) (holdFld s) then d
      else
        let d := modSwitch d (2 * b + s) fun w => { w with sched := tx }
        if forceOf d b s ≠ 0 then d
        else switchTo (if tx then armActions d (2 * b + s) else d) b s tx

/-- The switch reports its new state; the transmit mute lifts in transmit. -/
def switchDone (d : Dev) (p s : Nat) : Dev :=
  match (switchRt d (2 * p + s)).target with
  | none => d
  | some tx =>
    let d := modSwitch (wrB d (pgPORT p) (stateFld s) tx) (2 * p + s) fun w => { w with target := none, mute := ! tx }
    setTurn d p s (.tail 64)

/-- A segment's gate begins to open or to close. -/
def gateChange (d : Dev) (n : Nat) (opens : Bool) (period : Nat) : Dev :=
  if ¬ (isActive d n ∧ isTdd d n) then d
  else if opens then
    if period < 307200 ∨ patEmpty d n ∨ ¬ rdB d (pgAIR (clockOf d n)) AIR.CLK_STAT_SFN_KNOWN then d
    else modSeg (stepOver d (clockOf d n) period) n fun s => { s with gated := false, dirty := true, lowGate := false }
  else modSeg d n fun s => { s with gated := true, dirty := true, toneBad := true }

end Sys2Proof.Machine
end

