-- ==== Sys2Proof/Machine/Sense.lean ====
section
/-!
DEFINITION. What network protection is raised by at a segment's path: tone windows, low isolation, overload, the donor path
loss and cap source 2, uplink quieting and the noise rise (R97, R246 to R249, R255, R264 to R271).
-/

namespace Sys2Proof.Machine

/-! The tone detector (R97, R247, R255) -/

/-- A window's result counts for OSC_TONE. -/
def toneCount (d : Dev) (n : Nat) (ratio : Int) (discard : Bool) : Dev :=
  let s := segRt d n
  if npMuted d n ∨ s.toneSkip then modSeg d n fun s => { s with toneSkip := npMuted d n }
  else if discard then d
  else if ratio < rdS d pgNP NP.NP_TONE_TONE_TH then modSeg d n fun s => { s with toneRun := 0 }
  else
    let run := s.toneRun + 1
    let d := modSeg d n fun s => { s with toneRun := run }
    if rd d pgNP NP.NP_TONE_TONE_CNT ≤ run then npRaise d 0 n else d

/-- A 1,024-sample window ends: a RATIO, or a discard, which a window with an INV or gated sample always is. TONE_RES.SEQ
counts the windows that gave a result: the spec does not say whether a discarded one counts (DESIGN CHOICE, log entry 68). -/
def toneEnd (d : Dev) (n : Nat) (ratio : Int) (discard : Bool) : Dev :=
  let p := pgSEG n
  let busy := (segRt d n).inv || isGated d n
  let discard := discard || (segRt d n).toneBad || busy
  if ¬ isActive d n then d
  else
    let d := modSeg d n fun s => { s with toneBad := busy }
    let d :=
      if discard then wr (bump d p SEG.INV_CNT_TONE_DISCARD) p SEG.TONE_RES_VALID 0
      else
        let d := wr (incr (wrS d p SEG.TONE_RES_RATIO ratio) p SEG.TONE_RES_SEQ) p SEG.TONE_RES_VALID 1
        putItem d (qSeg n 11) 0x58 1 [(u16 ratio, 16), (rd d p SEG.TONE_RES_SEQ, 16)]
    let d := toneCount d n ratio discard
    if (segRt d n).toneNew then modSeg d n fun s => { s with toneNew := false, toneRun := 0 } else d

/-! Isolation and overload at a latch (R248, R249) -/

/-- The residual loop gain exceeds −ISO_LOW_TH. -/
def isoLow (d : Dev) (n : Nat) : Bool :=
  let p := pgSEG n
  let iso := min (rdS d p SEG.ISO_STAT_ISO + rdS d p SEG.CANC_STAT_CREDIT) (rdS d p SEG.ISO_AUX_ISO_X)
  rdB d p SEG.ISO_STAT_VALID && decide (-(rdS d pgNP NP.NP_ISO_ISO_LOW_TH) < gainNow d n - iso)
def isoLatch (n : Nat) (d : Dev) : Dev := if isoLow d n then npRaise d 2 n else npEnd d 2 n

/-- A cause of DONOR_OVERLOAD holds on a segment (R249): over-range events within the last 10 ms, or the run of periods. -/
def ovlCause (d : Dev) (n : Nat) : Bool :=
  decide (rd d pgNP NP.NP_OVL_OVL_EVENTS
      < ((tget (fun _ => []) d.np.ovl (inBranch d n)).filter fun t => decide (d.devLoop < t + 320)).length)
    || decide (rd d pgNP NP.NP_OVL_OVL_PERIODS ≤ tget (fun _ => 0) d.np.ovlRun n)

/-- IN_RAW above OVL_LEVEL in OVL_PERIODS consecutive periods; a period without a valid level is skipped. -/
def ovlLatch (n : Nat) (inRaw : Int) (inOk : Bool) (d : Dev) : Dev :=
  if isUplink d n ∨ 2 ≤ inBranch d n then d
  else
    let was := tget (fun _ => 0) d.np.ovlRun n
    let run := if inOk then (if rdS d pgNP NP.NP_OVL_OVL_LEVEL < inRaw then was + 1 else 0) else was
    let d := { d with np := { d.np with ovlRun := tset (fun _ => 0) d.np.ovlRun n (min 255 run) } }
    let d := if ovlCause d n then { d with np := { d.np with ovlLast := tset (fun _ => 0) d.np.ovlLast n d.devLoop } } else d
    if inOk = true ∧ rd d pgNP NP.NP_OVL_OVL_PERIODS ≤ run then npRaise d 6 n else d

/-- Neither cause of DONOR_OVERLOAD has held for 1 s. -/
def ovlQuiet (d : Dev) (n : Nat) : Dev :=
  if tget (fun _ => 0) d.np.ovlLast n + 32000 ≤ d.devLoop + 1 then npEnd d 6 n else d

/-! Donor path loss and cap source 2 (R264 to R266) -/

def plKey (g p : Nat) : Nat := 4 * g + p
def plOf (d : Dev) (g p : Nat) : Option PathLoss := tget (fun _ => none) d.np.pl (plKey g p)
def setPl (d : Dev) (g p : Nat) (x : Option PathLoss) : Dev :=
  { d with np := { d.np with pl := tset (fun _ => none) d.np.pl (plKey g p) x } }

/-- The group's active downlink segments whose input branch is donor port p. -/
def plSegs (d : Dev) (g p : Nat) : List Nat :=
  d.act.filter fun n => isActive d n && ! isUplink d n && decide (groupOf d n = g ∧ inBranch d n = p)

/-- A group whose noise-rise cap is on. -/
def nrOn (d : Dev) (g : Nat) : Bool := decide (g ≠ 0) && rdUB d (pgGRP g) GRP.GRP_CFG_NR_EN

/-- What R264 asks beside the measurement: NR_EN, REF_PWR set, the segment's clock LOCKED. -/
def plReady (d : Dev) (g p : Nat) : Bool :=
  nrOn d g && decide (rdU d (pgGRP g) GRP.GRP_CFG_REF_PWR ≠ 0x8000)
    && (match plSegs d g p with
        | n :: _ => decide (ckState d (clockOf d n) = ckLOCKED)
        | [] => false)

/-- Loop periods of 10 s. -/
def tenSec : Nat := 320000
def plValid (d : Dev) (g p : Nat) : Bool :=
  match plOf d g p with
  | some x => plReady d g p && ! x.expired && decide (d.devLoop ≤ x.time + tenSec)
  | none => false
/-- The last valid value is held (R266). -/
def plHeld (d : Dev) (g p : Nat) : Bool :=
  match plOf d g p with
  | some x => nrOn d g && ! x.expired && ! plValid d g p
  | none => false
/-- PL_UL in force: valid or held, else PL_MIN. -/
def plNow (d : Dev) (g p : Nat) : Int :=
  match plOf d g p with
  | some x => if x.expired then rd d pgNP NP.NP_NR_PL_MIN else x.loss
  | none => rd d pgNP NP.NP_NR_PL_MIN

/-- The donor ports that carry a downlink segment of the group. -/
def plPorts (d : Dev) (g : Nat) : List Nat := [0, 1].filter fun p => plSegs d g p != []

/-- The instant from which a value is held. -/
def plMark (d : Dev) (g p : Nat) : Dev :=
  match plOf d g p with
  | some x =>
    let h := if plHeld d g p then some (x.held.getD d.devLoop) else none
    if h = x.held then d else setPl d g p (some { x with held := h })
  | none => d

/-- GRP_STAT of a group follows; a change of VALID or HELD is INT_RAW bit 0. -/
def refreshGroup (g : Nat) (d : Dev) : Dev :=
  let pg := pgGRP g
  let d := plMark (plMark d g 0) g 1
  let valid := match plPorts d g with | p :: _ => plValid d g p | [] => false
  let held := [0, 1].any (plHeld d g)
  let rest := d.np.grps.filter (· ≠ g)
  let d := { d with np := { d.np with grps := if valid || held then insertNat g rest else rest } }
  if rdB d pg GRP.GRP_STAT_VALID = valid ∧ rdB d pg GRP.GRP_STAT_HELD = held then d
  else raise (wrB (wrB d pg GRP.GRP_STAT_VALID valid) pg GRP.GRP_STAT_HELD held) pgNPGW 0
/-- The groups with NR_EN that have an active segment. -/
def nrGroups (d : Dev) : List Nat :=
  ((d.act.map (groupOf d)).filter (nrOn d)).eraseDups

/-- A 10 s measurement of a group's reference at a donor port. -/
def pathloss (d : Dev) (g p : Nat) (rx : Int) : Dev :=
  let pg := pgGRP g
  if ¬ nrOn d g ∨ plSegs d g p = [] then d
  else
    let d := wrS d pg GRP.GRP_STAT_RX rx
    if ¬ plReady d g p then refreshGroup g d
    else
      let loss := rdUS d pg GRP.GRP_CFG_REF_PWR - rx + rdUS d pg GRP.GRP_PL_UL_CORR
      let d := setPl d g p (some ⟨loss, d.devLoop, none, false⟩)
      let d := if (plPorts d g).head? = some p then wrS d pg GRP.GRP_PL_PL loss else d
      refreshGroup g d

/-- A held value has stood for 600 s. -/
def plExpire (d : Dev) (g p : Nat) : Dev :=
  match plOf d g p with
  | some x =>
    if plHeld d g p ∧ x.held.any (fun t => decide (t + 19200000 ≤ d.devLoop + 1)) then refreshGroup g (setPl d g p (some { x with expired := true })) else d
  | none => d

/-- The nearest level unit to 10 log10 K dB: the greatest n with n − 1/2 at or below 200 log10 K, for 1 ≤ K ≤ 1,024. -/
def logUnits (k : Nat) : Int :=
  ((List.range 604).filter fun n => decide (n = 0 ∨ 10 ^ (2 * n - 1) ≤ k ^ 400)).length - 1

/-- Active uplink segments of the group that output to a donor port. -/
def kOf (d : Dev) (g p : Nat) : Nat :=
  (d.act.filter fun n => isActive d n && isUplink d n && decide (groupOf d n = g) && hasOut d n p).length

/-- The donor ports among an uplink segment's output branches. -/
def donorOuts (d : Dev) (n : Nat) : List Nat := (outs d n).filter (· < 2)

/-- N_BS − NR_MARGIN of a group. -/
def nrBase (d : Dev) (g : Nat) : Int := rdUS d (pgGRP g) GRP.GRP_NR_N_BS - rdUS d (pgGRP g) GRP.GRP_NR_NR_MARGIN

/-- Cap source 2 (R265). -/
def nrCap (d : Dev) (n : Nat) : Int :=
  let g := groupOf d n
  if ¬ isUplink d n ∨ ¬ nrOn d g then 2200
  else (donorOuts d n).foldl (fun m p =>
    min m (nrBase d g + plNow d g p - noiseIn d n - logUnits (max 1 (kOf d g p)))) 2200
def nrLatch (n : Nat) (d : Dev) : Dev := wrS d (pgNPS n) NPS.NPS_NOISE_CAP_NR (nrCap d n)

/-! Uplink quieting (R267 to R270) -/

/-- A QUIET_EVENT item (Table 14.6). -/
def quietItem (n : Nat) (d : Dev) : Dev :=
  putItem d (qSeg n 7) 0x38 1 [(quietOf d n, 2), (0, 14), (rd d (pgNPS n) NPS.NPS_NOISE_CONTRIB, 16)]

/-- The drop begins or ends. -/
def setIdle (d : Dev) (n : Nat) (on : Bool) : Dev :=
  if d.np.idle.contains n = on then d
  else
    let d := { d with np := { d.np with idle := if on then insertNat n d.np.idle else d.np.idle.filter (· ≠ n) } }
    quietItem n (refreshProbe n d)

/-- Symbols of a slot: LTE 7, NR 14, GSM one timeslot. -/
def quietSlot (rat : Nat) : Nat := if rat = 2 then 7 else if rat = 3 then 14 else 1

/-- The detector's decision on a symbol or timeslot of density `dens`; `floor` is the mean density, over the last second,
of those judged idle. A TDD segment counts and moves its drop within its receive window alone (R270). -/
def quietSymbol (d : Dev) (n : Nat) (dens floor : Int) : Dev :=
  let p := pgNPS n
  let rat := rd d (pgAIR (clockOf d n)) AIR.SRC_CFG_RAT
  if ¬ isActive d n ∨ ¬ isUplink d n ∨ rat = 1 ∨ isGated d n = true then d
  else
    let active := decide (floor + rdU d p NPS.NPS_QCFG_ACT_TH < dens)
    let d := wrS d p NPS.NPS_QSTAT_FLOOR floor
    let syms := tget (fun _ => 0) d.np.slotSyms n + 1
    let busy := active || d.np.slotActive.contains n
    let full := decide (quietSlot rat ≤ syms)
    let d := { d with np := { d.np with
      slotSyms := tset (fun _ => 0) d.np.slotSyms n (if full then 0 else syms),
      slotActive := if busy && ! full then insertNat n d.np.slotActive else d.np.slotActive.filter (· ≠ n) } }
    let d :=
      if active then wr d p NPS.NPS_QSTAT_IDLE_SLOTS 0
      else if full && ! busy then bump d p NPS.NPS_QSTAT_IDLE_SLOTS else d
    setIdle d n (rdUB d p NPS.NPS_CFG_QUIET_EN && ! active
      && (d.np.idle.contains n || decide (rdU d p NPS.NPS_CFG_N_IDLE ≤ rd d p NPS.NPS_QSTAT_IDLE_SLOTS)))

/-! The noise rise (R271) -/

/-- NOISE_RISE ends after a second in which the contribution has stayed low. -/
def nrFall (d : Dev) (n : Nat) (low : Bool) : Dev :=
  let was := tget (fun _ => none) d.np.nrLow n
  let now := if low then some (was.getD d.devLoop) else none
  let d := { d with np := { d.np with nrLow := tset (fun _ => none) d.np.nrLow n now } }
  if now.any fun t => decide (t + 32000 ≤ d.devLoop + 1) then npEnd d 4 n else d

/-- The noise-rise contribution over the last second; `mean` is the mean input density of a UMTS segment. While FLOOR is not
known there is none. -/
def noiseRise (d : Dev) (n : Nat) (mean : Int) : Dev :=
  let p := pgNPS n
  let g := groupOf d n
  if ¬ isActive d n ∨ ¬ isUplink d n ∨ ¬ nrOn d g then d
  else
    match donorOuts d n with
    | [] => d
    | q :: t =>
      let rat := rd d (pgAIR (clockOf d n)) AIR.SRC_CFG_RAT
      let floor := if rat = 1 then mean else rdS d p NPS.NPS_QSTAT_FLOOR
      if floor = -32768 then d else
      let pl := t.foldl (fun m r => min m (plNow d g r)) (plNow d g q)
      let k := maxOf ((q :: t).map (kOf d g))
      let c := floor + gainNow d n - pl + logUnits (max 1 k)
      let d := quietItem n (wrS (if rat = 1 then wrS d p NPS.NPS_QSTAT_FLOOR mean else d) p NPS.NPS_NOISE_CONTRIB c)
      let lim := nrBase d g + rd d pgNP NP.NP_NR_NR_EXCESS
      nrFall (if lim < c then npRaise d 4 n else d) n (decide (c ≤ lim - 20))

end Sys2Proof.Machine
end

