-- ==== Sys2Proof/Machine/Ext.lean ====
section
/-!
DEFINITION. The extension ports: link states, capability records, the control channel, delays, alarms, and the injectors'
rows (R295 to R318, R475 to R478, R481).
-/

namespace Sys2Proof.Machine

/-- Link states (Table 11.6). -/
def exDOWN : Nat := 0
def exTRAINING : Nat := 1
def exALIGNED : Nat := 2
def exState (d : Dev) (k : Nat) : Nat := rd d (pgEXT k) EXT.EXT_STAT_STATE

/-- LB_EXT loops the link (R481). -/
def looped (d : Dev) (k : Nat) : Bool := decide (rd d pgPROV PROV.LB_EXT_LB / 4 ^ k % 4 = 1)

/-- The active segments with an output branch, or the input branch, on a link. -/
def outsOn (d : Dev) (k : Nat) : List Nat :=
  d.act.filter fun n => isActive d n && (defOf d n).outs.any fun b => decide (4 ≤ b ∧ linkOf b = k)
def insOn (d : Dev) (k : Nat) : List Nat :=
  d.act.filter fun n => isActive d n && decide (4 ≤ inBranch d n ∧ linkOf (inBranch d n) = k)

/-- A HEAD_EVENT item in q13 of each segment with a branch on the link. -/
def headEvents (d : Dev) (k : Nat) : Dev :=
  forEach (d.act.filter fun n => (outsOn d k).contains n || (insOn d k).contains n)
    (fun n d => putItem d (qSeg n 13) 0x68 1 [(k, 4), (exState d k, 4), (0, 24)]) d

/-- The link leaves RUNNING (R316): the segments with their input on it receive samples with INV from now on. -/
def leaveRun (d : Dev) (k : Nat) : Dev :=
  let d := forEach (insOn d k) (fun n d => modSeg d n fun s => { s with dirty := true, toneBad := true }) d
  tallyPage (corrected (forEach (outsOn d k) (fun n d => outputDropped d n) d) (84 + k) false) (pgEXT k) 0

/-- The link returns to RUNNING: its output branches restart as added branches, its input segments take a synchronizing
reset. -/
def enterRun (d : Dev) (k : Nat) : Dev :=
  let d := forEach (outsOn d k) (fun n d =>
    let new := (defOf d n).outs.filter fun b => decide (4 ≤ b ∧ linkOf b = k)
    modIso (setValid (pathBranches d n new) n false) n fun i => { i with added := i.added ++ new }) d
  tellConts k (forEach (insOn d k) (fun n d => modSeg d n fun s => { s with headSync := true }) d)

/-- STATE changes: INT_RAW bit 0, the items of the segments concerned, and R316. -/
def setExt (d : Dev) (k st : Nat) : Dev :=
  let was := exState d k
  if st = was then d
  else
    let d := headEvents (refreshSf k (raise (wr d (pgEXT k) EXT.EXT_STAT_STATE st) (pgEXT k) 0)) k
    if was = extRUNNING then leaveRun d k else if st = extRUNNING then enterRun d k else d

/-- TRAINING: the link adopts the present S; capabilities, locks of the far end, the round trip and the control channel
start afresh. -/
def train (d : Dev) (k : Nat) : Dev :=
  let d := wr (modExt d k fun x => { x with sf := d.sfPhase.getD 0, unacked := [], rxSeq := none, rxMsg := [], rtts := [],
                                            tHead := none, calm := 0, marks := 0, missed := 0, events := [] }) (pgEXT k) EXT.EXT_STAT_CAPS_OK 0
  setExt d k exTRAINING

/-- DOWN: no lock. A looped link reads TRAINING instead. -/
def goDown (d : Dev) (k : Nat) : Dev :=
  let p := pgEXT k
  let d := modExt (wr (wr d p EXT.EXT_STAT_BLOCK_LOCK 0) p EXT.EXT_STAT_FRAME_LOCK 0) k fun x => { x with headLock := false }
  if looped d k then train d k else setExt d k exDOWN

/-- ALIGNED becomes RUNNING, and TRAINING becomes ALIGNED, where Table 11.6 has it. -/
def tryRun (d : Dev) (k : Nat) : Dev :=
  if exState d k = exALIGNED ∧ rdB d (pgEXT k) EXT.EXT_CTRL_RUN_EN = true ∧ rdB d (pgEXT k) EXT.EXT_STAT_FIBRE_LONG = false
  then setExt d k extRUNNING else d
def tryAlign (d : Dev) (k : Nat) : Dev :=
  let p := pgEXT k
  if exState d k = exTRAINING ∧ looped d k = false ∧ rdB d p EXT.EXT_STAT_FRAME_LOCK = true ∧ (extRt d k).headLock = true
      ∧ rdB d p EXT.EXT_STAT_CAPS_OK = true ∧ (extRt d k).rtts ≠ [] then
    tryRun (setExt (wr d p EXT.EXT_STAT_CTRL_FAIL 0) k exALIGNED) k
  else tryRun d k

/-! Signals and locks -/

def extSignal (d : Dev) (k : Nat) (present los txFault : Bool) (rxPwr txPwr : Int) : Dev :=
  let p := pgEXT k
  let d := wrB (wrB (wrB d p EXT.EXT_STAT_MOD_PRESENT present) p EXT.EXT_STAT_LOS los) p EXT.EXT_STAT_TX_FAULT txFault
  let d := wrS (wrS d p EXT.SFP_DDM_RX_PWR rxPwr) p EXT.SFP_DDM_TX_PWR txPwr
  if (los || ! present) && ! looped d k then goDown d k else d

/-- The receiver has a signal: its own loopback's, or the module's while the link is enabled. -/
def extSignalOk (d : Dev) (k : Nat) : Bool :=
  let p := pgEXT k
  looped d k || (rdB d p EXT.EXT_CTRL_EN && rdB d p EXT.EXT_STAT_MOD_PRESENT && ! rdB d p EXT.EXT_STAT_LOS)

def extBlockLock (d : Dev) (k : Nat) : Dev :=
  if ¬ extSignalOk d k then d
  else
    let d := wr d (pgEXT k) EXT.EXT_STAT_BLOCK_LOCK 1
    if exState d k = exDOWN then train d k else d
def extBlockLoss (d : Dev) (k : Nat) : Dev := if rdB d (pgEXT k) EXT.EXT_STAT_BLOCK_LOCK then goDown d k else d

/-- Frame lock of the engine's receiver, or of the head's as the engine learns it. -/
def extFrameLock (d : Dev) (k : Nat) (head : Bool) : Dev :=
  if head then tryAlign (modExt d k fun x => { x with headLock := true }) k
  else if rdB d (pgEXT k) EXT.EXT_STAT_BLOCK_LOCK then tryAlign (wr d (pgEXT k) EXT.EXT_STAT_FRAME_LOCK 1) k
  else d
def extFrameLoss (d : Dev) (k : Nat) (head : Bool) : Dev :=
  let d := if head then modExt d k fun x => { x with headLock := false } else wr d (pgEXT k) EXT.EXT_STAT_FRAME_LOCK 0
  if exALIGNED ≤ exState d k then train d k else d

def extRetrain (d : Dev) (k : Nat) : Dev := if exALIGNED ≤ exState d k then train d k else d
def extEnable (d : Dev) (k : Nat) (en : Bool) : Dev :=
  let d := wrB d (pgEXT k) EXT.EXT_CTRL_EN en
  if en || looped d k then d else goDown d k
def extRunEnable (d : Dev) (k : Nat) (en : Bool) : Dev :=
  let d := wrB d (pgEXT k) EXT.EXT_CTRL_RUN_EN en
  if en then tryRun d k else if exState d k = extRUNNING then setExt d k exALIGNED else d

/-! Frames (R298 to R305, R308) -/

/-- A row that carries a sample of a container meets the injectors; a row held before is exchanged with it, and the row
that overtakes is not counted (R477). -/
def rowUnit (d : Dev) (index dir frame : Nat) (r : Rep) : Rep × Option RowAct :=
  if (List.range 8).any fun i => holdsOf (injOf r i) 1 index dir then (releaseHeld r 1 index dir 8 0, none)
  else
    match injMeet d 1 index dir frame 8 0 r [] with
    | (r, .drop) => (r, some .drop)
    | (r, .hold) => (r, some .swap)
    | (r, .pass []) => (r, none)
    | (r, .pass l) => (r, some (.mask (l.foldl (fun a m => a ^^^ (m.2 % 2 ^ 28)) 0)))

/-- An injector is armed on rows of the link. -/
def rowsArmed (d : Dev) (k : Nat) : Bool :=
  (List.range 8).any fun i => decide ((injOf d.rep i).state = 1 ∧ rd d pgPROV (INJ.INJ_TGT_KIND i) = 1
    ∧ rd d pgPROV (INJ.INJ_TGT_INDEX i) / 128 = k)

/-- The number of the frame that the present loop period holds. -/
def frameNo (d : Dev) (k : Nat) : Nat := (d.devLoop + 320 - (extRt d k).sf) % 320

/-- The rows of one frame of a RUNNING link, both directions. -/
def frameRows (d : Dev) (k : Nat) : Dev :=
  if exState d k ≠ extRUNNING ∨ ¬ rowsArmed d k then modExt d k fun x => { x with rowActs := [] }
  else
    let frame := frameNo d k
    let res := (extRt d k).conts.foldl (fun a c =>
      (List.range (rowsOf (rd d (pgSEG c.2.2.1) SEG.PATH_CFG_RATE))).foldl (fun a i =>
        let u := rowUnit d (128 * k + c.2.1) (b2n c.1) frame a.1
        (u.1, match u.2 with | some act => (c.1, c.2.1, i, act) :: a.2 | none => a.2)) a) (d.rep, [])
    modExt { d with rep := res.1 } k fun x => { x with rowActs := res.2 }

/-- A control fragment as received: SEQ, FIRST and the data. -/
def fragment (d : Dev) (k seq : Nat) (first : Bool) (data : List Nat) : Dev :=
  let x := extRt d k
  let inOrder : Bool := match x.rxSeq with | none => true | some s => decide (seq = (s + 1) % 4096)
  if ¬ inOrder then d
  else modExt d k fun x => { x with rxSeq := some seq, rxMsg := if first then data else x.rxMsg ++ data }

/-- Fragments up to the acknowledged one need no resend. -/
def fragAck (l : List Frag) (seq : Nat) : List Frag :=
  if l.any fun e => decide (e.seq = seq) then (l.dropWhile fun e => decide (e.seq ≠ seq)).drop 1 else l

/-- A marker, present or missing (R299): four in a row give frame lock, three missing in a row lose it. -/
def markerSeen (d : Dev) (k : Nat) (marker : Bool) : Dev :=
  let d := modExt d k fun x =>
    if marker then { x with marks := min 4 (x.marks + 1), missed := 0 } else { x with marks := 0, missed := min 3 (x.missed + 1) }
  if marker then (if (extRt d k).marks = 4 then extFrameLock d k false else d)
  else
    let d := bump d (pgEXT k) EXT.LINK_CNT0_MARKER_MISS
    if (extRt d k).missed = 3 then extFrameLoss d k false else d

/-- A basic frame arrives: its marker, its header with an acknowledgement, its control fragment and its bad rows. A header that
fails its CRC is ignored, and so is a fragment that does. -/
def extFrame (d : Dev) (k : Nat) (marker : Bool) (hdr : BitVec 256) (frag : List Nat) (badRows : Nat) : Dev :=
  let p := pgEXT k
  if ¬ rdB d p EXT.EXT_STAT_BLOCK_LOCK then d
  else
    let d := if headOk hdr then
        (match headAck hdr with | some a => modExt d k fun x => { x with unacked := fragAck x.unacked a } | none => d)
      else bump d p EXT.LINK_CNT1_HDR_CRC
    let d := match fragOf frag with | some f => fragment d k f.1 f.2.1 f.2.2.2 | none => d
    let was := rd d p EXT.LINK_CNT0_BAD_ROWS
    let d := wr d p EXT.LINK_CNT0_BAD_ROWS (satAdd 16 was badRows)
    frameRows (markerSeen (if was = 0 ∧ badRows ≠ 0 then raise d p 5 else d) k marker) k

/-- A fragment that is not acknowledged within four frames goes out again with the next frame; after eight resends the control
channel has failed. -/
def fragTimeout (d : Dev) (k seq : Nat) : Dev :=
  let p := pgEXT k
  match (extRt d k).unacked.find? fun e => decide (e.seq = seq) with
  | none => d
  | some e =>
    if ¬ (e.sent.any (fun t => decide (t + 3 ≤ d.devLoop)) = true) then d
    else if 8 ≤ e.resends then
      let d := raise (wr d p EXT.EXT_STAT_CTRL_FAIL 1) p 4
      if exALIGNED ≤ exState d k then train d k else modExt d k fun x => { x with unacked := [] }
    else
      let d := modExt d k fun x => { x with unacked := x.unacked.map fun u =>
        if u.seq = seq then { u with resends := u.resends + 1, sent := none } else u }
      bump d p EXT.LINK_CNT1_CTRL_RETX

/-! The engine's own frames (R296 to R298) -/

/-- The header of the present frame; `silent` is SILENT (R311). -/
def frameHead (d : Dev) (k : Nat) (silent : Bool) : FrameHead :=
  let x := extRt d k
  { frameNo := frameNo d k, sfFrame := x.sfTime.1, sfHyper := x.sfTime.2.1, silent := silent, ack := x.rxSeq,
    sfTick := x.sfTime.2.2, aligned := rdB d (pgEXT k) EXT.EXT_STAT_SF_ALIGNED, events := x.events }

/-- A frame begins with a loop period on every link that is not DOWN: it carries the header with the events gathered since the
frame before, and the first fragment that waits. -/
def frameSend (k : Nat) (d : Dev) : Dev :=
  if exState d k = exDOWN then modExt d k fun x => { x with events := [] }
  else
    let now := (rd d (pgAIR 0) AIR.FRAME_NOW_FRAME, rd d (pgAIR 0) AIR.FRAME_NOW_HYPER, (airRt d 0).tick)
    let d := if frameNo d k = 0 then modExt d k fun x => { x with sfTime := now } else d
    let head := (frameHead d k (d.rep.flt.silent || npSilent d)).word
    let frag := match (extRt d k).unacked.find? fun e => decide (e.sent = none) with
      | some e => fragBytes e.seq true true e.data
      | none => fragIdle
    let seq := ((extRt d k).unacked.find? fun e => decide (e.sent = none)).map (·.seq)
    let mark (u : Frag) : Frag := if seq = some u.seq then { u with sent := some d.devLoop } else u
    emitD (modExt d k fun x => { x with events := [], unacked := x.unacked.map mark }) (.extFrame k head frag)

/-! Messages from the head (R308 to R313) -/

/-- R309 for a record of 48 words, its CRC over the bytes of words 0 to 46, each word's most significant byte first (PRESUMED,
log entry 72). -/
def capsOk (w : List Nat) : Bool :=
  let g (i : Nat) := w.getD i 0
  decide (crcOf ((w.take 47).flatMap fun x => beBytes x 4) = g 47) && decide (g 0 / 16777216 = 1) && decide (g 3 % 256 ≠ 0) && [0, 1].all fun b =>
    (List.range (min 8 (g (10 + 19 * b) % 256))).all fun j =>
      [g (11 + 19 * b + 2 * j), g (12 + 19 * b + 2 * j)].all fun r =>
        decide (617 ≤ r / 65536 ∧ r / 65536 ≤ 4200 ∧ 617 ≤ r % 65536 ∧ r % 65536 ≤ 4200)

/-- Every container of the link is within the record in force. -/
def contsFit (d : Dev) (k : Nat) : Bool :=
  linkFits d [] k true && linkFits d [] k false &&
    (d.act.filter fun n => (outsOn d k).contains n || (insOn d k).contains n).all fun n =>
      let x := defOf d n
      headBandsOk d x && x.heads.all fun b => decide (linkOf b ≠ k) || headRate d x b

def rxCaps (d : Dev) (k : Nat) (words : List Nat) : Dev :=
  let p := pgEXT k
  if exState d k = exDOWN then d
  else if capsOk words then
    let d := modExt d k fun x => { x with caps := words.take 48 }
    let d := wr (wr d p EXT.EXT_STAT_CAPS_OK 1) p EXT.EXT_STAT_CAPS_REFUSED 0
    let d := wr (wr d p EXT.HEAD_DLY_A_H_TX (words.getD 8 0 / 65536)) p EXT.HEAD_DLY_A_H_RX (words.getD 8 0 % 65536)
    let d := wr (wr d p EXT.HEAD_DLY_B_H_TX (words.getD 27 0 / 65536)) p EXT.HEAD_DLY_B_H_RX (words.getD 27 0 % 65536)
    let d := forEach d.act refreshMatch (sendMsg d k 2 [0])
    if exState d k = extRUNNING ∧ contsFit d k = false then train d k else tryAlign d k
  else raise (sendMsg (wr d p EXT.EXT_STAT_CAPS_REFUSED 1) k 2 [1]) p 1

def rxAlarm (d : Dev) (k bits : Nat) : Dev :=
  let p := pgEXT k
  let live := rd d p EXT.HEAD_ALM_LIVE
  let up := (List.range 16).filter fun i => nbit bits i && ! nbit live i
  let latch := up.foldl nbitSet (rd d p EXT.HEAD_ALM_LATCH)
  let d := wr (wr d p EXT.HEAD_ALM_LIVE bits) p EXT.HEAD_ALM_LATCH latch
  forEach up (fun _ d => raiseTally d p 3) d

/-- Per branch: forward power and return loss as codes, over-range events. -/
def rxStatus (d : Dev) (k : Nat) (a b : Nat × Nat × Nat) : Dev := modExt d k fun x => { x with status := [a, b] }

/-- T_head of the last frame 0, in 0.1 ns. -/
def rxEcho (d : Dev) (k tHead : Nat) : Dev := modExt d k fun x => { x with tHead := some tHead }

/-- The round trip of frame 0, both times in 0.1 ns (R313, R314). -/
def extRtt (d : Dev) (k tLoop : Nat) : Dev :=
  let p := pgEXT k
  match (extRt d k).tHead with
  | none => d
  | some h =>
    if exState d k = exDOWN then d
    else
      let l := (((tLoop : Int) - h - Config.extCal k) :: (extRt d k).rtts).take 16
      let one := (quot (l.foldl (· + ·) 0) (2 * l.length)).toNat
      let calm := if one ≤ 990000 then min 16 ((extRt d k).calm + 1) else 0
      let d := modExt (wr d p EXT.FIBRE_ONE_WAY one) k fun x => { x with rtts := l, tHead := none, calm := calm }
      let was := rdB d p EXT.EXT_STAT_FIBRE_LONG
      let d := if ¬ was ∧ 1000000 < one then raise (wr d p EXT.EXT_STAT_FIBRE_LONG 1) p 2
        else if was ∧ 16 ≤ calm then wr d p EXT.EXT_STAT_FIBRE_LONG 0 else d
      let d := if rdB d p EXT.EXT_STAT_FIBRE_LONG ∧ exState d k = extRUNNING then setExt d k exALIGNED else d
      tryAlign (refreshShorts (forEach d.act refreshMatch d)) k

/-- A read of CAPS_DATA increments IDX, wrapping at 48. -/
def capsRead (d : Dev) (k : Nat) : Dev :=
  let i := rd d (pgEXT k) EXT.CAPS_IDX_IDX
  wr d (pgEXT k) EXT.CAPS_IDX_IDX (if 47 ≤ i then 0 else i + 1)

/-! Loopback (R474, R481) -/

/-- A link's loopback code changes. -/
def lbLink (was : Nat) (k : Nat) (d : Dev) : Dev :=
  let old := was / 4 ^ k % 4
  if old = rd d pgPROV PROV.LB_EXT_LB / 4 ^ k % 4 then d else goDown d k

/-- A write of LB_EXT: a non-zero code acts only in TEST; codes 2 and 3 are reserved. -/
def lbWrite (d : Dev) (v : Nat) : Dev :=
  if (v ≠ 0 ∧ d.mode ≠ .test) ∨ ports4.any (fun k => decide (2 ≤ v / 4 ^ k % 4)) then setError d pgPROV 0x44
  else
    let was := rd d pgPROV PROV.LB_EXT_LB
    forEach ports4 (lbLink was) (wr d pgPROV PROV.LB_EXT_LB v)

end Sys2Proof.Machine
end

