-- ==== Sys2Proof/Machine/Tally.lean ====
section
/-!
DEFINITION. Tally's flushes, clears, reading and export (R422 to R437), its counters and the wall clock (R427, R428).
-/

namespace Sys2Proof.Machine

/-! The stored form of a record (Table 17.1) -/

/-- The FLAGS byte (Table 17.2). -/
def flagsByte (f : TFlags) : Nat :=
  b2n f.saturated + 2 * b2n f.continuation + 4 * b2n f.loss + 8 * b2n f.snapPartial + 16 * b2n f.forced
    + 32 * b2n f.pf + 64 * b2n f.wallBack

/-- A record's first 31 dwords. -/
def recBody (x : TRec) : List Nat :=
  [x.seq % 4294967296, x.seq / 4294967296 % 65536 + x.area * 65536 + flagsByte x.flags * 16777216, x.opSec,
   x.pcyc + x.frac * 16777216, x.wall % 4294967296, x.wall / 4294967296 % 4294967296, x.code + x.source * 65536,
   x.rep + x.cls * 65536 + x.snaps.length * 16777216]
    ++ (List.range 11).flatMap (fun j =>
      match x.snaps[j]? with
      | some s => [s.1 + s.2.1 * 65536, s.2.2]
      | none => [0, 0])
    ++ [0]
def dwordBytes (l : List Nat) : List Byte := l.flatMap fun w => leBytes w 4
/-- A record's 32 dwords; one that fails its CRC holds another last dword. -/
def recDwords (x : TRec) : List Nat :=
  let c := crc32c (dwordBytes (recBody x))
  recBody x ++ [if x.crcOk then c else (c + 1 + Config.freeValue x.seq % 4294967295) % 4294967296]

/-! Flushes -/

/-- Write a record to its area (R424). -/
def storeRec (t : Tally) (x : TRec) : Tally :=
  if t.first.length < 4096 then { t with first := t.first ++ [{ x with area := 0 }] }
  else
    { t with last := (if t.last.length < 262144 then t.last else t.last.drop 1) ++ [{ x with area := 1 }] }

/-- Continuation records of a pending count (R426). -/
def stageConts (d : Dev) (x : TRec) : Nat → Nat → Rep → Rep
  | 0, _, r => r
  | fuel + 1, n, r =>
    if n = 0 then r
    else if n ≤ 65535 then
      stageNew d r { x with rep := n, snaps := [], flags := { flags0 with continuation := true } }
    else
      stageConts d x fuel (n - 65535)
        (stageNew d r
          { x with rep := 65535, snaps := [], flags := { flags0 with continuation := true, saturated := true } })

/-- Stage the pending count (R426). -/
def takePend (d : Dev) (r : Rep) : Rep :=
  match r.tally.pendRec with
  | none => r
  | some x =>
    stageConts d x (r.tally.pend / 65535 + 1) r.tally.pend (modTally r fun t => { t with pend := 0, pendRec := none })

/-- The fault records deferred by the pages' isolation (R407, R435). -/
def stageDeferred (d : Dev) (r : Rep) : Rep :=
  r.tally.deferred.foldl
    (fun r e => stageR d r (0x1000 + e.1) (srcHome e.1) (srcClass e.1 + 1) e.2.2)
    (modTally r fun t => { t with deferred := [] })

/-- The Granary is parked (R416). -/
def parked (d : Dev) : Bool := rdB d pgGRN GRN.GRN_STAT_PARKED

/-- A flush commits: its slots are freed, the pending count is staged, a further trigger starts its flush (R422 to
R426, R435). -/
def flushCommit (d : Dev) : Dev :=
  if d.rep.tally.flushing ∧ ¬ tallyOut d.rep ∧ ¬ parked d then
    let r := modTally d.rep fun t =>
      let w := ((t.staged.filter fun s => s.taken).map (·.rcd)).foldl storeRec t
      { w with staged := t.staged.filter fun s => ! s.taken, flushing := false, again := false }
    let r := takePend d (raiseR d r pgTAL 1)
    let r := stageDeferred d r
    { d with rep := if d.rep.tally.again then startFlush r else r }
  else d

/-- Write the whole staging at once; records not yet taken carry PF in a power-fail flush (R423). -/
def flushAll (d : Dev) (pf : Bool) : Dev :=
  let r := takePend d d.rep
  { d with rep := modTally r fun t =>
      let l := t.staged.map fun s =>
        if pf && ! s.taken then { s.rcd with flags := { s.rcd.flags with pf := true } } else s.rcd
      { l.foldl storeRec t with staged := [], flushing := false, again := false } }

/-- The Tally pages come back (R408, R435): the first flush runs at once, then the deferred records are staged. -/
def tallyBack (d : Dev) : Dev :=
  let r := startFlush (modTally d.rep fun t => { t with again := false })
  { d with rep := if r.tally.flushing then r else stageDeferred d r }

def tallyFlush (d : Dev) : Dev := if parked d then d else { d with rep := startFlush d.rep }

/-! Counters and the wall clock -/

/-- OP_SEC and PCYC are stored (R427). -/
def storeCounters (d : Dev) : Dev :=
  if parked d then d
  else { d with rep := modTally d.rep fun t => { t with storedOps := t.opSec, storedPcyc := t.pcyc } }

/-- A counter at its largest value writes one COUNTER_STUCK record (Table 17.5). -/
def counterStuck (d : Dev) : Dev :=
  let t := d.rep.tally
  let d := if t.on ∧ t.opSec = 4294967295 ∧ ¬ t.opStuck then
      raise (tally { d with rep := modTally d.rep fun t => { t with opStuck := true } } 0x3004 0xE0 0) pgTAL 4
    else d
  if t.on ∧ t.pcyc = 16777215 ∧ ¬ t.pcStuck then
    raise (tally { d with rep := modTally d.rep fun t => { t with pcStuck := true } } 0x3004 0xE0 0) pgTAL 4
  else d

/-- An operating second ends (R427, R428). -/
def tallySecond (d : Dev) : Dev :=
  counterStuck { d with rep := modTally d.rep fun t =>
    { t with opSec := satAdd 32 t.opSec 1,
             wall := if t.wall = 0 then 0 else (t.wall + 1) % 18446744073709551616 } }

/-- A write of WALL_HI sets the clock (R428). -/
def wallSet (d : Dev) (hi : Nat) : Dev :=
  let v := hi * 4294967296 + d.rep.tally.wallLo
  if v = 0 then setError d pgTAL 0x60
  else
    let w := d.rep.tally.wall
    let r := modTally d.rep fun t => { t with wall := v }
    let old := [(0xE0, 0x5C, w % 4294967296), (0xE0, 0x60, w / 4294967296 % 4294967296)]
    { d with rep := stageWith d r 0x3001 0xE0 0 false old false }

/-! Clearing (R431, R432) -/

/-- A refused clear: STATE, the record with CLR_STAT, INT_RAW bit 3. -/
def clearRefused (d : Dev) (st : Nat) : Dev :=
  let d := wr d pgTAL TAL.CLR_STAT_STATE st
  let d := { d with rep := stageWith d d.rep 0x3003 0xE0 0 false [(0xE0, 0x68, peek d pgTAL 0x68)] false }
  raise d pgTAL 3

/-- The CLEARED record takes a SEQ and its item, and goes to the annex with CLEAR_CNT + 1. -/
def clearedRecord (d : Dev) (stat : Nat) : Rep :=
  let src := d.trust.heldKey
  let bump (r : Rep) := modTally r fun t => { t with clearCnt := t.clearCnt + 1 }
  if seqMax < d.rep.tally.next then
    bump (raiseR d (modTally d.rep fun t => { t with dropped := satAdd 16 t.dropped 1, loss := true }) pgTAL 2)
  else
    let t := d.rep.tally
    let snaps := [(0xE0, 0x64, peek d pgTAL 0x64), (0xE0, 0x68, stat), (0xE0, 0x48, peek d pgTAL 0x48),
      (0xE0, 0x4C, peek d pgTAL 0x4C)]
    let x := freshRec d d.rep 0x3002 src 0 false snaps false
    let back := decide (x.wall ≠ 0 ∧ t.lastWall ≠ 0 ∧ x.wall < t.lastWall)
    let x := { x with seq := t.next, area := 2, flags := { x.flags with loss := t.loss, wallBack := back } }
    let r := modTally d.rep fun t =>
      { t with next := t.next + 1, loss := false, lastWall := x.wall, annex := t.annex ++ [x] }
    bump (putItemR d r (qGlob 1) 0x70 2 [(x.seq % 4294967296, 32), (x.code, 16), (x.source, 16)])

/-- The held token permits a clear of these areas. -/
def clearToken (d : Dev) (areas : Nat) : Bool :=
  match d.trust.held with
  | some (a, g, _) => decide (a = 1 ∧ g % 4 = areas ∧ areas ≠ 0)
  | none => false

/-- CLR_CTRL.GO with its AREAS. -/
def tallyClear (d : Dev) (areas : Nat) : Dev :=
  if tallyOut d.rep then d
  else
    let d := wr d pgTAL TAL.CLR_CTRL_AREAS areas
    if d.rep.tally.erasing ≠ 0 then clearRefused d 5
    else if ¬ clearToken d areas then clearRefused d 3
    else if 256 ≤ d.rep.tally.annex.length then clearRefused d 4
    else
      let stat := peek d pgTAL 0x68
      let d := raise (flushAll d false) pgTAL 0
      let d := useToken { d with rep := clearedRecord d stat }
      let d := { d with rep := modTally d.rep fun t => { t with erasing := 4 + areas } }
      raise (wr d pgTAL TAL.CLR_STAT_STATE 1) pgTAL 2

/-- The named areas are empty. -/
def eraseAreas (t : Tally) : Tally :=
  { t with first := if nbit t.erasing 0 then [] else t.first, last := if nbit t.erasing 1 then [] else t.last,
           erasing := 0 }
def eraseDone (d : Dev) : Dev :=
  if d.rep.tally.erasing = 0 then d
  else
    let again := d.rep.tally.again
    let d := { d with rep := modTally d.rep fun t => { eraseAreas t with again := false } }
    let d := raise (wr d pgTAL TAL.CLR_STAT_STATE 2) pgTAL 5
    if again then tallyFlush d else d

/-! Reading and export (R433, R434) -/

/-- RD_CTRL.GO: MODE and IDX are written with it. -/
def tallyRead (d : Dev) (mode idx : Nat) : Dev :=
  if tallyOut d.rep then d
  else if rd d pgTRD TRD.RD_STAT_STATE = 1 then setError d pgTRD 0x40
  else
    let d := wr (wr d pgTRD TRD.RD_CTRL_MODE mode) pgTRD TRD.RD_CTRL_IDX idx
    let k := if mode = 3 then rd d pgTRD TRD.RD_SEQ_HI_RD_SEQ * 4294967296 + rd d pgTRD TRD.RD_SEQ_LO_RD_SEQ else idx
    let d := wr (wr d pgTRD TRD.RD_STAT_STATE 1) pgTRD TRD.RD_STAT_CRC_OK 0
    { d with rep := modTally d.rep fun t => { t with fetch := some (mode, k, 0) } }

/-- The written records of FIRST and LAST, those of an area being erased left out, in SEQ order. -/
def written (t : Tally) : List TRec :=
  (if nbit t.erasing 0 then [] else t.first) ++ (if nbit t.erasing 1 then [] else t.last)

/-- The record a fetch names. -/
def findRec (t : Tally) (mode k : Nat) : Option TRec :=
  if mode = 0 then (if nbit t.erasing 0 then none else t.first[k]?)
  else if mode = 1 then (if nbit t.erasing 1 then none else t.last[k]?)
  else if mode = 2 then t.annex[k]?
  else (written t ++ t.annex).find? fun x => decide (x.seq = k)

/-- RD_DATA takes a record's dwords. -/
def putData (d : Dev) : Nat → List Nat → Dev
  | _, [] => d
  | i, w :: t => putData (wr d pgTRD (TRD.RD_DATA_DWORD i) w) (i + 1) t

def fetchDone (d : Dev) : Dev :=
  match d.rep.tally.fetch with
  | none => d
  | some (mode, k, _) =>
    let x := findRec d.rep.tally mode k
    let d := { d with rep := modTally d.rep fun t => { t with fetch := none } }
    match x with
    | none => raise (wr d pgTRD TRD.RD_STAT_STATE 3) pgTRD 0
    | some x =>
      raise (wr (wrB (putData d 0 (recDwords x)) pgTRD TRD.RD_STAT_CRC_OK x.crcOk) pgTRD TRD.RD_STAT_STATE 2) pgTRD 0

/-- The records an export takes. -/
def exportList (t : Tally) (annex : Bool) (seq cnt : Nat) : List TRec :=
  if annex then t.annex else ((written t).filter fun x => decide (seq ≤ x.seq)).take cnt

/-- EXP_CTRL.GO: ANNEX is written with it. -/
def tallyExport (d : Dev) (annex : Bool) : Dev :=
  let cnt := rd d pgTRD TRD.EXP_CNT_COUNT
  let dest := rd d pgTRD TRD.EXP_DEST_DEST * 4096
  if tallyOut d.rep then d
  else if rd d pgTRD TRD.EXP_STAT_STATE = 1
      ∨ capBytes < dest + 128 * (if annex then d.rep.tally.annex.length else cnt) then setError d pgTRD 0x60
  else
    let d := wrB d pgTRD TRD.EXP_CTRL_ANNEX annex
    let seq := rd d pgTRD TRD.EXP_SEQ_HI_EXP_SEQ * 4294967296 + rd d pgTRD TRD.EXP_SEQ_LO_EXP_SEQ
    let d := wr (wr d pgTRD TRD.EXP_STAT_STATE 1) pgTRD TRD.EXP_STAT_WRITTEN 0
    { d with rep := modTally d.rep fun t => { t with exporting := some (seq, cnt, dest, annex) } }

def exportDone (d : Dev) (m : Mem) : Dev × Mem :=
  match d.rep.tally.exporting with
  | none => (d, m)
  | some (seq, cnt, dest, annex) =>
    let l := exportList d.rep.tally annex seq cnt
    let m := if capUsable d then memStore m dest (l.flatMap fun x => dwordBytes (recDwords x)) else m
    let d := { d with rep := modTally d.rep fun t => { t with exporting := none } }
    (raise (wr (wr d pgTRD TRD.EXP_STAT_WRITTEN l.length) pgTRD TRD.EXP_STAT_STATE 2) pgTRD 1, m)

end Sys2Proof.Machine
end

