-- ==== Sys2Proof/Machine/Latch.lean ====
section
/-!
DEFINITION. The latch at phase 0.00 µs of a loop period, the write at phase 25.00 µs, the operating second, and the host's
protection commands (R22, R146, R256 to R261).
-/

namespace Sys2Proof.Machine

/-! Protection commands (R260): they wait for the next latch -/

def npRefused (d : Dev) : Dev := raise d pgNP 6
def npQueue (d : Dev) (op kind level cond index : Nat) : Dev :=
  { d with np := { d.np with cmds := d.np.cmds ++ [(op, kind, level, cond, index)] } }

/-- The key of a target of OPERATOR_OFF (segment, branch, module), where it names one. -/
def opKey (kind index : Nat) : Option Nat :=
  if kind = 0 then some index
  else if kind = 1 then (if index < 12 then some (opBranch index) else none)
  else if kind = 2 then some opModule else none
/-- The event's target kind: a segment, a branch, the module. -/
def opEvKind (kind : Nat) : Nat := if kind = 0 then 0 else kind + 1
def setOp (d : Dev) (key level : Nat) : Dev := { d with np := { d.np with ops := tset (fun _ => 0) d.np.ops key level } }

/-- OPERATOR_OFF is set: a raising, and its level. -/
def operatorOff (d : Dev) (kind level index : Nat) : Dev :=
  match opKey kind index with
  | none => npRefused d
  | some key =>
    let l := if kind = 0 then level + 2 else kind + 2
    let was := opLevel d key
    let ev (cls event level : Nat) : NpEv := ⟨cls, 9, opEvKind kind, index, event, level, 0, 0⟩
    let d := if was = 0 then raise (bump (npEvent d (ev 0 0 l)) pgNP NP.NP_CNT0_RAISED) pgNP 0 else d
    let d := if was = l then d else npEvent d (ev 3 2 l)
    let d := setOp d key l
    if was < l then raise d pgNP 1 else d

/-- OPERATOR_OFF is removed: an end, and its level. -/
def operatorOn (d : Dev) (kind index : Nat) : Dev :=
  match opKey kind index with
  | none => npRefused d
  | some key =>
    if opLevel d key = 0 then npRefused d
    else
      let ev (cls event : Nat) : NpEv := ⟨cls, 9, opEvKind kind, index, event, 0, 0, 0⟩
      npEvent (npEvent (setOp d key 0) (ev 1 1)) (ev 3 2)

/-- A latched condition is released; one that is still present is raised afresh at START. -/
def npUnlatch (d : Dev) (kind cond index : Nat) : Dev :=
  let names := (decide (kind = 0) && segCodes.contains cond) || decide (kind = 1 ∧ cond = 5 ∧ index < 4)
  if ¬ names ∨ ¬ (condOf d cond index).latched then npRefused d
  else
    let was := (condOf d cond index).present
    let d := modCond d cond index fun c =>
      { c with level := 0, steps := 0, tries := 0, latched := false, present := false, backoff := none, watch := none,
               due := false, rel := false }
    let d := condEvent d 3 cond index 5
    if was then npRaise d cond index else d

/-- One waiting command. -/
def npCommand (d : Dev) (x : Nat × Nat × Nat × Nat × Nat) : Dev :=
  match x with
  | (op, kind, level, cond, index) =>
    if op = 1 then operatorOff d kind level index
    else if op = 2 then operatorOn d kind index else npUnlatch d kind cond index

/-! Restarts and releases at a latch (R256, R258, R261) -/

/-- A restart or a release that is due on one condition and target. -/
def npDue (d : Dev) (code idx : Nat) : Dev :=
  let c := condOf d code idx
  if c.due then (if c.present then modCond d code idx fun c => { c with due := false } else npRestart d code idx)
  else if c.rel then npRelease d code idx else d
/-- A count of loop periods has run out, or does so before the next latch. -/
def ranOut (left : Option Nat) : Bool := left.any fun t => decide (t ≤ 1)
/-- A back-off delay runs out: the restart waits for the next latch (R256). None does in SAFE (R259). -/
def backoffEnd (d : Dev) (code idx : Nat) : Dev :=
  if npActs d && ranOut (condOf d code idx).backoff then modCond d code idx fun c => { c with due := true, backoff := none } else d
/-- A watch runs out without a new raising (R257). -/
def watchEnd (d : Dev) (code idx : Nat) : Dev :=
  if npActs d && ranOut (condOf d code idx).watch then modCond d code idx fun c => { c with watch := none, tries := 0 } else d

def npDueAll (d : Dev) : Dev := d.np.conds.foldl (fun d e => npDue d (e.1 / 1024) (e.1 % 1024)) d

/-! The order of events in one latch (R261) -/

def evBefore (a b : NpEv) : Bool :=
  decide (a.cls * 1048576 + a.code * 65536 + a.idx ≤ b.cls * 1048576 + b.code * 65536 + b.idx)
def evInsert (a : NpEv) : List NpEv → List NpEv
  | [] => [a]
  | b :: t => if evBefore a b then a :: b :: t else b :: evInsert a t
def evSort (l : List NpEv) : List NpEv := l.foldr evInsert []

/-- SOURCE of a protection event (Table 17.3). -/
def evPage (e : NpEv) : Nat :=
  if e.kind = 0 then pgSEG e.idx
  else if e.kind = 3 then 1
  else if e.idx < 4 then pgPORT e.idx else pgEXT (linkOf e.idx)
/-- The segments an event concerns (R246). -/
def evSegs (d : Dev) (e : NpEv) : List Nat :=
  if e.kind = 0 then [e.idx] else if e.kind = 3 then d.act else d.act.filter fun n => hasOut d n e.idx
/-- One event's record and items (R246, Table 14.6). -/
def evOut (d : Dev) (e : NpEv) : Dev :=
  let d := tally d (0x2000 + 16 * e.code + e.event) (evPage e) 0
  forEach (evSegs d e)
    (fun n d => putItem d (qSeg n 1) 0x10 1
      [(e.code, 4), (e.event, 4), (e.level, 4), (e.tries, 4), (e.steps, 4), (0, 12)]) d
def evFlush (d : Dev) : Dev := (evSort d.np.evs).foldl evOut { d with np := { d.np with evs := [] } }

/-- OSC_TONE and OSC_FE end once their action has taken effect, a TRIM at this latch (R255). -/
def selfEnd (d : Dev) (e : Nat × Cond) : Dev :=
  if e.1 < 2048 ∧ e.2.present ∧ ¬ e.2.wait ∧ e.2.level = 1 then npEnd d (e.1 / 1024) (e.1 % 1024) else d

/-- Protection at a latch. A restart that removes the last RF_SILENT in SERVICE leads to RECOVERY (R256). -/
def npLatch (d : Dev) : Dev :=
  let cmds := d.np.cmds
  let a := cmds.foldl npCommand { d with np := { d.np with cmds := [] } }
  let a := a.np.conds.foldl selfEnd a
  let b := if npActs a then npDueAll a else a
  let b := npApply d b
  evFlush (if npSilent a && ! npSilent b then toRecovery b else b)

/-! The operating second -/

/-- Back-offs and watches run down (R259). A back-off or a watch ends by its own command. -/
def npTick (d : Dev) : Dev :=
  if npActs d then
    d.np.conds.foldl (fun d e => modCond d (e.1 / 1024) (e.1 % 1024) fun c =>
      { c with backoff := c.backoff.map (· - 1), watch := c.watch.map (· - 1) }) d
  else d
/-- A held token's time left (R459). -/
def tokenSecond (d : Dev) : Dev :=
  { d with trust := { d.trust with held := d.trust.held.map fun h => (h.1, h.2.1, h.2.2 - 1) } }
/-- BUSY of the loaded clusters over the last second, whose values the spec does not give (R403). -/
def busySecond (d : Dev) : Dev :=
  forEach (List.range 32) (fun k d =>
    if rdB d (pgWVL k) WVL.WVL_STAT_LOADED then
      { wr d (pgWVL k) WVL.WVL_LOAD_BUSY (Config.freeValue d.free % 1001) with free := d.free + 1 }
    else d) d
/-- A second ends: PPS_OUT, OP_SEC, the wall clock, MODE_TIME, the second timers (R144, R427, R428, R472). -/
def second (d : Dev) : Dev :=
  let d := bump (bump (tallySecond (emitD d .pps)) pgMODE MODE.MODE_TIME_SECONDS) pgCGLB CGLB.SAVE_AGE_SECONDS
  busySecond (tokenSecond d)

/-! The latch -/

/-- A level is valid (R96): never where an invalid run or a closed gate took more than half of the period, always where
nothing was left out, and else as the detectors' count of the samples used, `ok`, says. -/
def levelValid (s : Seg) (ok : Bool) : Bool := ! (s.lowInv || s.lowGate) && (! s.dirty || ok)

/-- The levels of a segment (R96): a level that is not valid is held. -/
def levelLatch (x : LatchIn) (n : Nat) (d : Dev) : Dev :=
  let p := pgSEG n
  let s := segRt d n
  match x.levels.find? fun l => decide (l.seg = n) with
  | none => wr (wr d p SEG.LEVEL_OUT_OUT_VALID 0) p SEG.LEVEL_OUT_IN_VALID 0
  | some l =>
    let inOk := levelValid s l.inOk
    let outOk := levelValid s l.outOk
    let d := if inOk then wrS (wrS d p SEG.LEVEL_IN_IN l.inn) p SEG.LEVEL_IN_IN_RAW l.inRaw else d
    let d := if outOk then wrS d p SEG.LEVEL_OUT_OUT l.out else d
    ovlLatch n l.inRaw inOk (wrB (wrB d p SEG.LEVEL_OUT_OUT_VALID outOk) p SEG.LEVEL_OUT_IN_VALID inOk)

/-- LEVEL of the converters (R76). -/
def convLatch (l : List (Int × Int)) (d : Dev) : Dev :=
  forEach convs12 (fun i d =>
    match l[i]? with
    | some (peak, rms) => wrS (wrS d (pgCONV i) CONV.LEVEL_PEAK peak) (pgCONV i) CONV.LEVEL_RMS rms
    | none => d) d

/-- BW_LEVEL of the band windows (Table 4.15): the period before. -/
def bwinLatch (l : List (Int × Int)) (d : Dev) : Dev :=
  forEach (List.range 32) (fun w d =>
    match l[w]? with
    | some (peak, rms) => wrS (wrS d (pgBWIN w) BWIN.BW_LEVEL_PEAK peak) (pgBWIN w) BWIN.BW_LEVEL_RMS rms
    | none => d) d

/-- GF of every listening slot from the sources latched (R217). -/
def gfLatch (d : Dev) : Dev :=
  let src (n : Nat) : Int :=
    match (ctxRt d n).cur with
    | some c => [0, 1, 2, 4, 5].foldl (fun m i => min m (c.srcs.getD i 2200)) 2200
    | none => 2200
  forEach (List.range 16) (fun l e => wrS e pgLSN (LSN.LSN_STAT_GF l) (fabricGain d src l)) d

/-- The noise floors of the listening slots (R227). -/
def nfLatch (l : List (Option Int)) (d : Dev) : Dev :=
  slots16.foldl (fun d i => match l.getD i none with | some nf => setNf d i nf | none => d) d

/-- Phase 0.00 µs. -/
def loopLatch (d : Dev) (x : LatchIn) : Dev :=
  if d.supply ≠ .on then d
  else
    let d := { d with devLoop := d.devLoop + 1, written := false, evaluated := false }
    let d := if d.devLoop % 32000 = 0 then second d else d
    let d := npTick { d with np := { d.np with late := [] } }
    let d := forEach ports4 feedLatch (bwinLatch x.bwin (convLatch x.conv (clkTicks d)))
    let d := forEach (List.range 32) winLatch d
    let d := forEach ports4 frameSend d
    let d := forEach d.act (fun n d => turnTick n (runTick n d)) d
    let d := forEach d.act (fun n d => useTick n (levelLatch x n d)) d
    let d := forEach d.act (fun n d => setIsoCap n (isoDue n d)) d
    let d := forEach d.act nrLatch (talkLatch (nfLatch x.nf d))
    let d := npLatch (forEach d.act isoLatch d)
    let d := forEach ports4 (fun p d => txLatch (x.pre.getD p (-32768)) ((x.fwd.getD p none)) p d) d
    let d := latchAll (traceLatch (monTrig d 2)) x.gated x.pwm
    checkService (forEach (nrGroups d ++ d.np.grps) refreshGroup (gfLatch d))

/-- Phase 25.00 µs: only the gains of contexts evaluated since the latch are written. -/
def loopWrite (d : Dev) : Dev :=
  if d.evaluated ∧ ¬ d.written then forEach ports4 txGain (writeGains d) else d

end Sys2Proof.Machine
end

