-- ==== Sys2Proof/Machine/Reset.lean ====
section
/-!
DEFINITION. The engine at power-on, and what a power-on and a host restart keep (R210, R259, R283, R360, R369, R390, R400,
R416, R427, R430, R454).
-/

namespace Sys2Proof.Machine

def pubKey (k : Nat × List Nat) : PubKey := ⟨k.1, k.2⟩

/-- Every field at its reset value, before the start threshold has been met. -/
def dev0 (pt : Part) : Dev where
  part := pt
  devLoop := 0
  devHi := 0
  regs := []
  shadow := []
  rep := rep0
  supply := .waiting
  mode := .start
  prev := .start
  testFromSafe := false
  modeCause := 0
  alm := [false, false, false, false]
  boot := boot0
  trust := { trust0 with imgKeys := (Config.imgKeys.take 4).map pubKey, attKey := Config.attKey.map pubKey }
  segs := []
  ctxs := []
  airs := []
  sched := ⟨0, 0, [], [], [], []⟩
  switches := []
  exts := []
  sfPhase := none
  trace := trace0
  isos := []
  np := np0
  chains := []
  pwr := pwr0
  capChs := []
  conv := conv0
  feeds := []
  sig := sig0
  mps128 := false
  act := []
  written := false
  evaluated := false
  lnk := lnk0
  mon := mon0
  free := 0

/-- What a register keeps: the bits of the Granary; at a host restart also the DC feeds, the Granary's page, the link, the
derived clocks, the straps and the count of restarts, and the marks of R44. -/
def keepWord (host : Bool) (key : Nat) (cur rst : Word) : Word :=
  let pg := key / 4096
  let off := key % 4096
  let keep : Nat :=
    if host ∧ ((0x28 ≤ pg ∧ pg < 0x2C) ∨ pg = pgGRN ∨ (pg = pgHOST ∧ (off = 0x40 ∨ off = 0x5C)) ∨ (pg = pgCLK ∧ off = 0x40)
        ∨ (pg = pgMODE ∧ (off = 0x4C ∨ off = 0x50))) then 4294967295
    else if host ∧ pg = pgHOST ∧ off = 0x44 then 1
    else if host ∧ 0x20 ≤ pg ∧ pg < 0x24 ∧ off = 0x48 then 65280
    else regGran key
  let k := BitVec.ofNat 32 keep
  (cur &&& k) ||| (rst &&& ~~~ k)
def keepRegs (pt : Part) (host : Bool) (t : Table Word) : Table Word :=
  t.foldl (fun m e => tset (regReset pt) m e.1 (keepWord host e.1 e.2 (regReset pt e.1))) []

/-- A condition keeps its TRIES and a latched action (R259). -/
def keepCond (c : Cond) : Cond :=
  { cond0 with tries := c.tries, latched := c.latched, level := if c.latched then c.level else 0,
               steps := if c.latched then c.steps else 0 }
def keepConds (t : Table Cond) : Table Cond := t.foldl (fun m e => tset (fun _ => cond0) m e.1 (keepCond e.2)) []
/-- LOAD_LATCHED is kept (R283). -/
def keepChains (t : Table Chain) : Table Chain :=
  t.foldl (fun m e => tset (fun _ => chain0) m e.1 { chain0 with load := if e.2.load = 2 then 2 else 0 }) []
/-- A host restart empties the queues and keeps Q_SEQ.NEXT (R369, R400). -/
def keepQueues (t : Table Queue) : Table Queue :=
  t.foldl (fun m e => tset (fun _ => queue0) m e.1 { queue0 with next := e.2.next }) []
/-- The headers of the blocks a host restart leaves; LOCK clears on every page. -/
def keepHdrs (t : Table Hdr) : Table Hdr :=
  t.foldl (fun m e =>
    if (0x28 ≤ e.1 ∧ e.1 < 0x2C) ∨ e.1 = pgGRN then
      tset (fun _ => hdr0) m e.1 { e.2 with lock := false, enable := true } else m) []

/-- Tally's areas, marks and counters stay (R427, R430); the wall clock is lost at power-off. -/
def keepTally (host : Bool) (t : Tally) : Tally :=
  { tally0 with
    next := t.next, opSec := if host then t.opSec else t.storedOps,
    pcyc := if host then t.pcyc else satAdd 24 t.storedPcyc 1, opStuck := t.opStuck, pcStuck := t.pcStuck,
    wall := if host then t.wall else 0, first := t.first, last := t.last, annex := t.annex, cleanMark := t.cleanMark,
    storedOps := if host then t.storedOps else t.storedOps,
    storedPcyc := if host then t.storedPcyc else satAdd 24 t.storedPcyc 1, clearCnt := t.clearCnt, erasing := t.erasing }

def keepRep (host : Bool) (r : Rep) : Rep :=
  { rep0 with
    hdr := if host then keepHdrs r.hdr else [], queues := if host then keepQueues r.queues else [], ord := r.ord,
    msix := if host then r.msix else [], msixEn := host && r.msixEn, msixMask := host && r.msixMask,
    flt := if host then { collector0 with live := r.flt.live } else collector0, tally := keepTally host r.tally,
    out := r.out }

/-- The trust store (R449 to R456). -/
def keepTrust (t : Trust) : Trust :=
  { t with running := none, held := none, heldKey := 0, install := none }
/-- The journal, its counts and the pending CLR_ALT. -/
def keepBoot (b : Boot) : Boot :=
  { boot0 with startCause := b.startCause, entryOpen := b.entryOpen, journal := b.journal, attempts := b.attempts,
               railsFails := b.railsFails, badSlot := b.badSlot, clrAlt := b.clrAlt }

/-- The calibration store (R69). -/
def keepConv (c : Conv) : Conv :=
  { conv0 with newer := c.newer, validA := c.validA, validB := c.validB, setsA := c.setsA, setsB := c.setsB }

/-- Every block is reset but what is named (R400, step 3; power-on). -/
def resetDev (d : Dev) (host : Bool) : Dev :=
  let e : Dev :=
    { dev0 d.part with
      devLoop := if host then d.devLoop else 0, devHi := 0, regs := keepRegs d.part host d.regs,
      shadow := keepRegs d.part host d.shadow, rep := keepRep host d.rep, supply := d.supply, mode := d.mode, prev := d.prev,
      modeCause := d.modeCause, boot := keepBoot d.boot, trust := keepTrust d.trust,
      np := { np0 with conds := keepConds d.np.conds }, chains := keepChains d.chains, conv := keepConv d.conv,
      feeds := d.feeds,
      mps128 := host && d.mps128, free := d.free }
  wr e pgPRB PRB.NODE_NODE_ID d.trust.nodeId

end Sys2Proof.Machine
end

