-- ==== Sys2Proof/Machine/Boot.lean ====
section
/-!
DEFINITION. Start attempts, their steps, failures and retries, the boot journal, power-on, power fail and host restart (R5,
R27, R337 to R343, R399, R400, R430, R438 to R448).
-/

namespace Sys2Proof.Machine

def modBoot (d : Dev) (f : Boot → Boot) : Dev := { d with boot := f d.boot }

/-- Milliseconds between a loop period and the present one: 32 loop periods each. -/
def msSince (d : Dev) (t : Nat) : Nat := (d.devLoop - t) / 32 % 4294967296

/-! The journal (R448) -/

def addEntry (d : Dev) (e : JEntry) : Dev := modBoot d fun b => { b with journal := (e :: b.journal).take 32 }
def modEntry (d : Dev) (f : JEntry → JEntry) : Dev :=
  if d.boot.entryOpen then
    modBoot d fun b => { b with journal := match b.journal with
                                           | e :: t => f e :: t
                                           | [] => [] }
  else d
/-- The attempt closes its entry. -/
def closeEntry (d : Dev) (result cause : Nat) : Dev :=
  let ms := msSince d d.boot.start
  modBoot (modEntry d fun e => { e with result := result, cause := cause, duration := ms })
    fun b => { b with entryOpen := false }
/-- A new entry takes the next attempt number. -/
def newEntry (d : Dev) (cause step result why : Nat) : Dev :=
  let n := (d.boot.attempts + 1) % 65536
  addEntry (modBoot d fun b => { b with attempts := n })
    ⟨n, cause, step, result, why, rd d pgBOOT BOOT.BOOT_STAT_ALT, d.boot.slot, d.rep.tally.opSec, 0⟩

/-! The chain (R444 to R446) -/

/-- The alternative of a step as its bit of ALT (Tables 18.1 and 18.3). -/
def altBit (s : Nat) : Option Nat :=
  if s = 3 then some 0 else if s = 4 then some 1 else if s = 6 then some 2 else if s = 7 then some 3
  else if s = 9 then some 4 else if s = 10 then some 5 else none
def hasAlt (d : Dev) (b : Nat) : Bool := nbit (rd d pgBOOT BOOT.BOOT_STAT_ALT) b
def addAlt (d : Dev) (s : Nat) : Dev :=
  match altBit s with
  | some b => wr d pgBOOT BOOT.BOOT_STAT_ALT (nbitSet (rd d pgBOOT BOOT.BOOT_STAT_ALT) b)
  | none => d
/-- A failed attempt is counted in the chain. -/
def countFail (d : Dev) (s : Nat) : Dev :=
  let same := if rd d pgBOOT BOOT.BOOT_STAT_LAST_FAIL = s then satAdd 4 (rd d pgBOOT BOOT.BOOT_STAT_SAME_CNT) 1 else 1
  bump (wr (wr d pgBOOT BOOT.BOOT_STAT_SAME_CNT same) pgBOOT BOOT.BOOT_STAT_LAST_FAIL s) pgBOOT BOOT.BOOT_STAT_FAILS
/-- Failures of one step in a row, and failures in the chain, those at RAILS that no ROM step has journalled among them. -/
def sameFails (d : Dev) : Nat :=
  let n := d.boot.railsFails
  let same := rd d pgBOOT BOOT.BOOT_STAT_SAME_CNT
  if n = 0 then same else if rd d pgBOOT BOOT.BOOT_STAT_LAST_FAIL = 1 then same + n else n
def chainFails (d : Dev) : Nat := rd d pgBOOT BOOT.BOOT_STAT_FAILS + d.boot.railsFails
def giveUp (d : Dev) : Bool := decide (3 ≤ sameFails d) || decide (8 ≤ chainFails d)
/-- The chain ends; the set of alternatives stays (R444, R447). -/
def endChain (d : Dev) : Dev := wr (wr d pgBOOT BOOT.BOOT_STAT_FAILS 0) pgBOOT BOOT.BOOT_STAT_SAME_CNT 0

/-- The set is emptied at the next start (R447). -/
def applyClr (d : Dev) : Dev :=
  if d.boot.clrAlt then modBoot (wr d pgBOOT BOOT.BOOT_STAT_ALT 0) fun b => { b with clrAlt := false } else d

/-- The engine enters SAFE at the end of an attempt (Table 0.5, row 3). -/
def bootSafe (d : Dev) : Dev :=
  tally (setMode (modBoot d fun b => { b with phase := .ended }) .safe 3) 0x4300 pgBOOT 0

/-- Flush and clean-stop mark, as a host restart and a power-fail sequence make them; none while Tally is isolated or
the Granary parked (R430, R435). -/
def cleanFlush (d : Dev) (pf : Bool) : Dev :=
  if tallyOut d.rep ∨ parked d then d
  else
    let d := flushAll d pf
    { d with rep := modTally d.rep fun t => { t with cleanMark := true } }

/-- A step fails: the attempt ends (R443, R445, R461). -/
def failStep (d : Dev) (s cause : Nat) : Dev :=
  let d := tally d (0x4100 + s) pgBOOT 0
  let d := if s = 1 then modBoot d fun b => { b with railsFails := b.railsFails + 1 }
    else countFail (closeEntry d 1 cause) s
  let d := wr (addAlt d s) pgBOOT BOOT.BOOT_STAT_WAIT_MASTER 0
  let d := modBoot d fun b => { b with phase := if s = 1 then .retryRails else .retryRom }
  let d := cleanFlush (txGoAll (forEach d.act refreshProbe d)) false
  if giveUp d then bootSafe (if s ≤ 3 then wr d pgCLK GCLK.CLK_STAT_DDR_MTS 4800 else d) else d

/-! The ROM step begins (R430, R446, R454, R463) -/

/-- Tally resumes: an interrupted erase is completed, torn records are counted, SEQ goes on. -/
def tallyResume (d : Dev) : Dev :=
  let t := eraseAreas d.rep.tally
  let l := t.first ++ t.last ++ t.annex
  let top := (l.filter fun x => x.crcOk).foldl (fun m x => max m (x.seq + 1)) 0
  let torn := min 65535 (l.filter fun x => ! x.crcOk).length
  let clean := t.cleanMark
  let next := if clean then top else top + 512
  let d := { d with rep := { d.rep with tally := { t with on := true, torn := torn, next := next, cleanMark := false } } }
  counterStuck (if clean then d else tally d 0x3005 0xE0 0)

/-- An entry found open: with no clean-stop mark the attempt failed by an unclean stop. -/
def closeOpen (d : Dev) : Dev × Bool :=
  if d.boot.entryOpen then
    if d.rep.tally.cleanMark then (closeEntry d 2 0, false)
    else
      let s := match d.boot.journal with
        | e :: _ => e.step
        | [] => 2
      (addAlt (countFail (closeEntry d 1 10) s) s, true)
  else (d, false)

/-- Failures at RAILS that the supply controller counted, written to the journal; it kept no cause. -/
def foldRails : Nat → Dev → Dev
  | 0, d => modBoot d fun b => { b with railsFails := 0 }
  | n + 1, d =>
    let d := { newEntry d 3 1 1 (1 + Config.freeValue d.free % 2) with free := d.free + 1 }
    foldRails n (countFail d 1)

def romBegin (d : Dev) : Dev :=
  let (d, unclean) := closeOpen d
  let d := foldRails d.boot.railsFails d
  let d := if d.boot.journal.head?.map (·.result) = some 1 then raise d pgBOOT 0 else d
  let d := tallyResume d
  let d := { d with trust := { d.trust with attNext := d.trust.attRecord.getD d.trust.attRes } }
  let d := modBoot d fun b => { b with slot := d.trust.pref, phase := .step, stepStart := d.devLoop, passed := max 1 b.passed }
  let d := wr (applyClr d) pgBOOT BOOT.BOOT_STAT_STEP 2
  let d := modBoot (newEntry d d.boot.startCause 2 5 0) fun b => { b with entryOpen := true }
  let d := if rd d pgBOOT BOOT.BOOT_STAT_ALT ≠ 0 then tally d 0x5002 pgMODE 0 else d
  if unclean ∧ giveUp d then bootSafe (wr (closeEntry d 4 0) pgCLK GCLK.CLK_STAT_DDR_MTS 4800) else d

/-! Steps -/

/-- A step begins. -/
def stepBegin (d : Dev) (s : Nat) : Dev :=
  let d := modBoot d fun b => { b with phase := .step, stepStart := d.devLoop }
  modEntry (wr d pgBOOT BOOT.BOOT_STAT_STEP s) fun e => { e with step := s }
/-- A step has passed: its duration is recorded (R439). -/
def stepTimed (d : Dev) (s : Nat) : Dev :=
  let d := wr d pgBOOT (BOOT.STEP_TIME_MS (s - 1)) (msSince d d.boot.stepStart)
  modBoot d fun b => { b with passed := s }

/-- SERVICE (Table 0.5, rows 1 and 2). -/
def beginService (d : Dev) : Dev :=
  let d := stepTimed (stepBegin (stepTimed d 10) 11) 11
  let d := modBoot (endChain (closeEntry d 0 0)) fun b => { b with phase := .done }
  if rd d pgBOOT BOOT.BOOT_STAT_ALT ≠ 0 then setMode d .recovery 2 else setMode d .service 1

/-- The gain ramp: the survey's mutes are removed and every loop is reset (R442). -/
def beginRamp (d : Dev) : Dev :=
  let d := modBoot d fun b => { b with phase := .ramp }
  let d := forEach d.act (fun n d => if isActive d n then ctxActivate d n else d) d
  let d := npWake (txGoAll (forEach d.act refreshProbe d))
  if d.act = [] then beginService d else d

/-- ISO_SURVEY. -/
def beginSurvey (d : Dev) : Dev :=
  let d := stepBegin d 10
  if hasAlt d 5 ∨ d.act = [] then beginRamp d
  else
    let d := modBoot d fun b => { b with phase := .survey }
    npWake (txGoAll (forEach d.act refreshProbe d))

/-- The clocks that time an active TDD segment. -/
def tddClocks (d : Dev) : List Nat := (List.range 16).filter fun c => tddSegs d c != []

/-- AIR_ACQ begins, at `MASTER.READY` (R439, R441). -/
def beginAir (d : Dev) : Dev :=
  let d := stepBegin (wr d pgBOOT BOOT.BOOT_STAT_WAIT_MASTER 0) 9
  if hasAlt d 4 then beginSurvey (stepTimed (forEach (tddClocks d) (fun c d => loseTdd d c) d) 9) else d

/-- MONITOR has passed: MAINTENANCE ends in SAFE, else the engine waits for the master. -/
def monitorDone (d : Dev) : Dev :=
  if rd d pgMODE MODE.STRAP_BOOT_MODE = 3 then bootSafe (closeEntry d 4 0)
  else
    let d := modBoot d fun b => { b with phase := .waitMaster }
    let d := txGoAll (raise (wr d pgBOOT BOOT.BOOT_STAT_WAIT_MASTER 1) pgBOOT 1)
    if rdB d pgHOST HOST.MASTER_READY then beginAir d else d

/-- FILTER_TEST begins; under its alternative it is skipped and every fitted position is marked (R44). -/
def beginFilter (d : Dev) : Dev :=
  let d := stepBegin d 7
  if hasAlt d 3 then
    stepBegin (stepTimed (forEach ports4 (fun p d => wr d (pgPORT p) PORT.BAND_STAT_UNTESTED
      (rd d (pgPORT p) PORT.PORT_INFO_FITTED)) d) 7) 8
  else d

/-- The slot IMAGE uses (R440, R444, R451). -/
def imageSlot (d : Dev) : Nat :=
  let m := rd d pgMODE MODE.STRAP_BOOT_MODE
  if m = 1 then 0 else if m = 2 then 1 else if hasAlt d 0 then 1 - d.boot.badSlot else d.trust.pref
def beginImage (d : Dev) : Dev :=
  let d := modBoot (stepBegin d 3) fun b => { b with slot := imageSlot d }
  modEntry d fun e => { e with slot := d.boot.slot }

/-- CONVERTER_CAL: all twelve converters are calibrated, or the stored corrections are loaded (R65, R67). -/
def beginConv (d : Dev) : Dev :=
  let d := stepBegin d 6
  if hasAlt d 2 then d else calAllBegin d

def slotOf (t : Trust) (i : Nat) : ImgSlot := if i = 0 then t.slotA else t.slotB
def setSlot (t : Trust) (i : Nat) (x : ImgSlot) : Trust := if i = 0 then { t with slotA := x } else { t with slotB := x }
def modTrust (d : Dev) (f : Trust → Trust) : Dev := { d with trust := f d.trust }

/-- The cause an image check gives, 0 where it passes (R451). MAGIC and FORMAT have no cause of their own: it is then one
of SIGNATURE to KEY, whichever. -/
def imageCause (d : Dev) (c : ImgCheck) (svn : Nat) : Nat :=
  if ! c.store then 7
  else if ! c.head then 3 + Config.freeValue d.free % 4
  else if ! c.key then 6
  else if ! c.sig then 3
  else if svn < d.trust.minSvn then 5
  else if ! c.digest then 4 else 0

/-- IMAGE ends. -/
def imageDone (d : Dev) (c : ImgCheck) : Dev :=
  let i := d.boot.slot
  let why := imageCause d c (slotOf d.trust i).svn
  let d := if c.store ∧ ¬ c.head then { d with free := d.free + 1 } else d
  if why = 0 then
    let d := modTrust d fun t =>
      { setSlot t i { slotOf t i with valid := true, bad := false } with pref := i, running := some i }
    stepBegin (stepTimed d 3) 4
  else
    let d := if why = 7 then d else modTrust d fun t => setSlot t i { slotOf t i with valid := false, bad := true }
    failStep (modBoot d fun b => { b with badSlot := i }) 3 why

/-- A cluster's programs run; what it uses of its memory and time is not stated (R403). -/
def wvlLoad (bad : List Nat) (k : Nat) (d : Dev) : Dev :=
  let d := wr d (pgWVL k) WVL.WVL_STAT_WORKLOAD (workOf k)
  if bad.contains k then d
  else
    let d := wr (wr d (pgWVL k) WVL.WVL_STAT_LOADED 1) (pgWVL k) WVL.WVL_STAT_RUNNING 16
    let d := wr d (pgWVL k) WVL.WVL_LOAD_SHARED_KIB (Config.freeValue d.free % 2049)
    { wr d (pgWVL k) WVL.WVL_LOAD_BUSY (Config.freeValue (d.free + 1) % 1001) with free := d.free + 2 }
/-- WEEVIL ends: one failing cluster is isolated as source 96 + k, two or more fail the step (R28, R439). -/
def weevilDone (d : Dev) (bad : List Nat) : Dev :=
  let bad := bad.eraseDups
  if 2 ≤ bad.length then failStep d 5 2
  else
    let d := forEach (List.range 32) (wvlLoad bad) d
    let d := forEach bad (fun k d =>
      substitute (faultEvents { d with free := d.free + 1 } (freeCycle d) [(96 + k, true, false)]) k) d
    beginConv (stepTimed (checkEngines d) 5)

/-- CONVERTER_CAL ends (R66, R67). -/
def convDone (d : Dev) (temp : Int) : Dev :=
  if hasAlt d 2 then
    let d := refreshAllDegraded (forEach convs12 (loadCorr temp) d)
    if convs12.all fun i => (storedSet d.conv i).isSome then beginFilter (stepTimed d 6)
    else failStep d 6 7
  else if d.conv.running ≠ [] then d
  else if rd d pgCGLB CGLB.GLB_STAT_CAL_FAIL = 0 then beginFilter (stepTimed d 6) else failStep d 6 2

/-- A filter test: the positions within limits lose their mark (R44, R447). -/
def filterMarks (d : Dev) (bad : List (Nat × Nat)) : Dev :=
  forEach ports4 (fun p d =>
    wr d (pgPORT p) PORT.BAND_STAT_UNTESTED
      (bitsOf (fun q => nbit (rd d (pgPORT p) PORT.BAND_STAT_UNTESTED) q && bad.contains (p, q)) 8)) d

/-- RAILS ends: the store is measured, the derived clocks are locked, the feeds load their stored values and start (R56,
R337, R341, R401). -/
def railsDone (d : Dev) (ok : Bool) (mj : Nat) (bad : List Nat) : Dev :=
  let d := holdMeasure d mj
  if ok = false ∨ mj < 1200 then failStep d 1 2
  else
    let d := raise (setReg (wr d pgPWR PWR.HOLD_STAT_CHARGED 1) pgCLK 0x40 (BitVec.ofNat 32 31)) pgCLK 0
    let d := forEach ports4 (fun p d =>
      if bad.contains p then feedUnread d p else dcfStart p d) d
    romBegin (stepTimed d 1)

/-- Every enabled clock that times an active TDD segment is LOCKED (Table 18.1). -/
def clocksLocked (d : Dev) : Bool :=
  (tddClocks d).all fun c => decide (ckState d c = ckDISABLED) || decide (ckState d c = ckLOCKED)

/-- A start step ends. -/
def startStep (d : Dev) (x : StepIn) : Dev :=
  let s := rd d pgBOOT BOOT.BOOT_STAT_STEP
  if d.boot.phase ≠ .step ∨ d.mode ≠ .start ∨ d.supply ≠ .on then d
  else if s = 1 then railsDone d x.ok x.mj x.badFeeds
  else if s = 2 then (if x.ok then beginImage (stepTimed d 2) else failStep d 2 7)
  else if s = 3 then imageDone d x.image
  else if s = 4 then
    if x.ok then stepBegin (stepTimed (wr d pgCLK GCLK.CLK_STAT_DDR_MTS (if hasAlt d 1 then 4800 else 5600)) 4) 5
    else failStep d 4 2
  else if s = 5 then weevilDone d x.clusters
  else if s = 6 then convDone d x.temp
  else if s = 7 then
    let d := filterMarks d x.filters
    if x.filters = [] then stepBegin (stepTimed d 7) 8 else failStep d 7 2
  else if s = 8 then
    if x.ok ∧ ¬ rdB d pgMON MON.REF_STAT_FAIL0 ∧ ¬ rdB d pgMON MON.REF_STAT_FAIL1 then monitorDone (stepTimed d 8)
    else failStep d 8 2
  else if s = 9 then (if clocksLocked d then beginSurvey (stepTimed d 9) else d)
  else d

/-- A start step exceeds its limit (R438); AIR_ACQ then finds its condition false (Table 18.4). -/
def startTimeout (d : Dev) : Dev :=
  let s := rd d pgBOOT BOOT.BOOT_STAT_STEP
  if d.boot.phase ≠ .step ∨ d.mode ≠ .start ∨ d.supply ≠ .on ∨ s = 0 ∨ 10 ≤ s then d
  else failStep d s (if s = 9 then 8 else 1)

/-- The survey phase ends (R442). -/
def surveyEnd (d : Dev) : Dev :=
  if d.boot.phase ≠ .survey then d
  else if d.act.all fun n => ! isActive d n || rdB d (pgSEG n) SEG.ISO_STAT_VALID then beginRamp d
  else failStep d 10 9

/-- The gain ramp ends; running out of RAMP_TIME is no failure (R442). -/
def rampEnd (d : Dev) : Dev := if d.boot.phase = .ramp then beginService d else d

/-- A write of 1 to MASTER.READY (R361). -/
def masterReady (d : Dev) : Dev :=
  let d := raise (wr d pgHOST HOST.MASTER_READY 1) pgHOST 2
  if d.boot.phase = .waitMaster then beginAir d else d

/-- An attempt begins at RAILS. -/
def beginRails (d : Dev) : Dev :=
  let d := modBoot (applyClr d) fun b => { b with phase := .step, passed := 0, spent := false, start := d.devLoop, stepStart := d.devLoop }
  let d := forEach (List.range 11) (fun i d => wr d pgBOOT (BOOT.STEP_TIME_MS i) 0) d
  wr d pgBOOT BOOT.BOOT_STAT_STEP 1
/-- An attempt begins at ROM, with the effects of R400. -/
def beginRom (d : Dev) (cause : Nat) : Dev :=
  let d := cleanFlush d false
  let d := modTrust d fun t => { t with attRecord := some t.attNext }
  let d := txGoAll (resetDev d true)
  romBegin (modBoot d fun b => { b with startCause := cause, passed := 1, start := d.devLoop })

/-- The retry delay expires (R443). -/
def startRetry (d : Dev) : Dev :=
  if d.supply ≠ .on ∨ d.mode ≠ .start then d
  else
    match d.boot.phase with
    | .retryRails => beginRails (modBoot d fun b => { b with startCause := 3 })
    | .retryRom => beginRom d 3
    | _ => d

/-! Power (R337, R342, R343) -/

/-- The start threshold has been met: power-on reset, the straps, START at RAILS. -/
def powerOn (d : Dev) (bootMode : Nat) (agent : Bool) : Dev :=
  if d.supply ≠ .waiting then d
  else
    let cause := if d.boot.startCause = 2 then 2 else 0
    let d := { resetDev d false with supply := .on, mode := .start, prev := .start, modeCause := 0 }
    let d := wrB (wr d pgMODE MODE.STRAP_BOOT_MODE bootMode) pgMODE MODE.STRAP_MASTER_SEL agent
    let d := wr (wrB d pgHOST HOST.MASTER_SEL agent) pgMODE MODE.RST_STAT_CAUSE cause
    beginRails (txGoAll (modBoot d fun b => { b with startCause := cause }))

/-- RF and the feeds are off: the loads outside the flush domain are cut. -/
def cutLoads (d : Dev) : Dev :=
  dcfCutAll (forEach ports4 (fun p d =>
    txSet (modChain d p fun c => { c with drain := false, gate := false, rf := false }) p txOFF) { d with supply := .waiting })

/-- The records of a flush that the store's energy did not let commit: the first `wrote` are in the areas, one more is torn. -/
def partFlush (d : Dev) (wrote : Nat) (torn : Bool) : Dev :=
  { d with rep := modTally d.rep fun t =>
      let l := t.staged.map fun s => if s.taken then s.rcd else { s.rcd with flags := { s.rcd.flags with pf := true } }
      let t := (l.take wrote).foldl storeRec t
      match l[wrote]? with
      | some x => if torn then storeRec t { x with crcOk := false } else t
      | none => t }

/-- The power-fail sequence: `steps` of R27 complete before the energy ends, in `len` hundredths of a millisecond. -/
def powerFail (d : Dev) (steps len wrote : Nat) (torn : Bool) : Dev :=
  if d.supply ≠ .on then d
  else if d.boot.passed = 0 then
    modBoot (forEach ports4 feedLose (cutLoads d)) fun b => { b with phase := .idle, startCause := 0, railsFails := 0 }
  else
    let d := forEach ports4 feedLose (cutLoads d)
    let d := if tallyOut d.rep ∨ parked d then d
      else if 2 ≤ steps then cleanFlush d true else partFlush d wrote torn
    let d := if 3 ≤ steps then modTrust d fun t => { t with attRecord := some t.attNext } else d
    let d := if 4 ≤ steps then wr (closeEntry (storeCounters d) 2 0) pgGRN GRN.GRN_STAT_PARKED 1 else d
    let d := wr (wr d pgPWR PWR.PF_STAT_LAST_STEP steps) pgPWR PWR.PF_STAT_LAST_LEN len
    modBoot d fun b => { b with phase := .idle, startCause := 2, railsFails := 0 }

/-! Mode commands (R399, R400) -/

/-- A refused command. -/
def cmdRefused (d : Dev) (cmd : Nat) : Dev :=
  let d := wr (wr d pgMODE MODE.CMD_STAT_LAST_CMD cmd) pgMODE MODE.CMD_STAT_STATE 3
  raise (setError d pgMODE 0x44) pgMODE 1
/-- A command is done. -/
def cmdDone (d : Dev) (cmd : Nat) : Dev :=
  raise (wr (wr d pgMODE MODE.CMD_STAT_LAST_CMD cmd) pgMODE MODE.CMD_STAT_STATE 2) pgMODE 2

/-- CMD 4 (R400). -/
def hostRestart (d : Dev) (key : Nat) : Dev :=
  if key ≠ 0xD5 ∨ d.rep.flt.away.contains reloading ∨ d.supply ≠ .on then cmdRefused d 4
  else
    let safe := decide (d.mode = .safe)
    let d := closeEntry d 3 0
    let n := satAdd 16 (rd d pgMODE MODE.RST_STAT_RESTARTS) 1
    let d := { wr (wr d pgMODE MODE.RST_STAT_CAUSE 1) pgMODE MODE.RST_STAT_RESTARTS n with
               prev := d.mode, mode := .start, modeCause := 0, testFromSafe := false }
    let d := beginRom (if safe then endChain d else d) 1
    raise d pgMODE 0

end Sys2Proof.Machine
end

