-- ==== Sys2Proof/Machine/Trust.lean ====
section
/-!
DEFINITION. Boot requests, images, attestation, operator keys and tokens (R447 to R463).
-/

namespace Sys2Proof.Machine

/-- The start-up and trust pages are isolated (R460). -/
def trustOut (d : Dev) : Bool := ! (hdr d pgTRUST).enable

/-! BOOT_CTRL (R447) -/

def bootClrAlt (d : Dev) : Dev := if trustOut d then d else modBoot d fun b => { b with clrAlt := true }

/-- FT_RUN: TEST, no chain ON, no test running. -/
def ftRun (d : Dev) : Dev :=
  if trustOut d then d
  else if d.mode ≠ .test ∨ (ports4.any fun p => decide (txState d p = txON)) = true ∨ rdB d pgBOOT BOOT.BOOT_PEND_FT_BUSY then
    setError d pgBOOT 0x48
  else wr d pgBOOT BOOT.BOOT_PEND_FT_BUSY 1
/-- The test ends with these positions out of limits; with no mark left the FILTER_TEST alternative leaves the set. -/
def ftDone (d : Dev) (bad : List (Nat × Nat)) : Dev :=
  if ¬ rdB d pgBOOT BOOT.BOOT_PEND_FT_BUSY then d
  else
    let d := filterMarks (wr d pgBOOT BOOT.BOOT_PEND_FT_BUSY 0) bad
    let none' := ports4.all fun p => decide (rd d (pgPORT p) PORT.BAND_STAT_UNTESTED = 0)
    let d := if none' then wr d pgBOOT BOOT.BOOT_STAT_ALT (nbitClr (rd d pgBOOT BOOT.BOOT_STAT_ALT) 3) else d
    raise d pgBOOT 2

/-! Images (R449 to R452) -/

/-- A little-endian field of capture memory. -/
def memField (m : Mem) (a n : Nat) : Nat := leNat (memLoad m a n)

/-- The state an install of the image at `a` is refused with, 0 where it passes (R451). No state is named for a wrong MAGIC
or FORMAT: it is then one of the states of a refused image, whichever. -/
def installCheck (d : Dev) (m : Mem) (a : Nat) (sigOk digestOk : Bool) : Nat :=
  let key := d.trust.imgKeys[memField m (a + 0x18) 1]?
  if memField m a 4 ≠ 0x314D564F ∨ memField m (a + 4) 2 ≠ 1 then 4 + Config.freeValue d.free % 4
  else
    match key with
    | none => 7
    | some k =>
      if k.sigType ≠ memField m (a + 6) 2 then 7
      else if ! sigOk then 4
      else if memField m (a + 12) 4 < d.trust.minSvn then 6
      else if ! digestOk then 5 else 0

def installRefused (d : Dev) (slot st : Nat) : Dev :=
  tally (raise (wr d pgIMG IMG.IMG_RES_STATE st) pgIMG 1) 0x4302 slot 0

/-- IMG_CTRL.GO with its SLOT and MAKE_PREF. From its start the slot holds no valid image (R452). -/
def imageInstall (d : Dev) (m : Mem) (slot : Nat) (pref sigOk digestOk : Bool) : Dev :=
  let a := rd d pgIMG IMG.IMG_SRC_SRC * 4096
  if trustOut d then installRefused d slot 9
  else if d.mode = .start ∨ d.trust.install ≠ none ∨ capBytes < a + rd d pgIMG IMG.IMG_LEN_LEN then setError d pgIMG 0x54
  else
    let d := wrB (wr d pgIMG IMG.IMG_CTRL_SLOT slot) pgIMG IMG.IMG_CTRL_MAKE_PREF pref
    if d.trust.running = some slot then installRefused d slot 8
    else
      let st := installCheck d m a sigOk digestOk
      let d := if memField m a 4 ≠ 0x314D564F ∨ memField m (a + 4) 2 ≠ 1 then { d with free := d.free + 1 } else d
      if st ≠ 0 then installRefused d slot st
      else
        let d := modTrust d fun t =>
          { setSlot t slot { slotOf t slot with valid := false } with
            install := some (slot, memField m (a + 8) 4, memField m (a + 12) 4, pref) }
        wr d pgIMG IMG.IMG_RES_STATE 2

/-- The body has been written and read back, or not. -/
def installDone (d : Dev) (ok : Bool) : Dev :=
  match d.trust.install with
  | none => d
  | some (slot, ver, svn, pref) =>
    let d := modTrust d fun t => { t with install := none }
    if ok = false ∨ trustOut d then raise (wr d pgIMG IMG.IMG_RES_STATE 9) pgIMG 1
    else
      let d := modTrust d fun t =>
        let t := setSlot t slot ⟨ver, svn, true, false⟩
        if pref then { t with pref := slot } else t
      tally (raise (wr d pgIMG IMG.IMG_RES_STATE 3) pgIMG 0) 0x4301 slot 0

/-! Attestation (R453 to R455) -/

def attTotal : Nat := 1048576

/-- What the report holds (R455). -/
def attContents (d : Dev) (index : Nat) : List Nat :=
  [d.part.serial, (reg d 0 0x40).toNat, (reg d 0 0x44).toNat, d.trust.slotA.version, d.trust.slotA.svn, d.trust.slotB.version,
   d.trust.slotB.svn, d.trust.running.getD 2, d.trust.minSvn, rd d pgBOOT BOOT.BOOT_STAT_ALT, modeCode d.mode,
   rd d pgPRB PRB.NODE_NODE_ID, d.rep.tally.opSec, d.rep.tally.pcyc, d.rep.tally.next, index]
    ++ (List.range 8).map fun k => rd d pgTRUST (TRUST.ATT_NONCE_NONCE k)

/-- The report and, after it, the signature. -/
def attWrite (d : Dev) (m : Mem) (a index : Nat) : Mem :=
  let rep := (List.range 128).map fun i => BitVec.ofNat 8 (Config.attByte (attContents d index) i)
  let sig := (List.range 2820).map fun i => BitVec.ofNat 8 (Config.freeBytes d.free i)
  memStore m a (rep ++ sig)

/-- ATT_CTRL.GO. -/
def attest (d : Dev) (m : Mem) : Dev × Mem :=
  let a := rd d pgTRUST TRUST.ATT_DEST_DEST * 4096
  let t := d.trust
  if trustOut d then (raise (wr d pgTRUST TRUST.ATT_STAT_STATE 4) pgTRUST 1, m)
  else if capBytes < a + 2948 then (setError d pgTRUST 0x5C, m)
  else if attTotal ≤ t.attNext then
    let d := raise (wr d pgTRUST TRUST.ATT_STAT_STATE 3) pgTRUST 1
    (raise (tally d 0x430A pgTRUST 0) pgTRUST 3, m)
  else
    let i := t.attNext
    let m := if capUsable d then attWrite d m a i else m
    let d := modTrust { d with free := d.free + 1 } fun t =>
      { t with attNext := i + 1, attRes := if t.attRes ≤ i then min attTotal (t.attRes + 64) else t.attRes, attRecord := none }
    let d := raise (wr d pgTRUST TRUST.ATT_STAT_STATE 2) pgTRUST 1
    if attTotal - (i + 1) ≤ 65536 ∧ ¬ t.attLow then
      (raise (tally (modTrust d fun t => { t with attLow := true }) 0x4309 pgTRUST 0) pgTRUST 2, m)
    else (d, m)

/-! Operator keys and tokens (R456 to R459) -/

def opKey' (t : Trust) (k : Nat) : Option PubKey := tget (fun _ => none) t.opKeys k
def setOpKey (t : Trust) (k : Nat) (x : Option PubKey) : Trust := { t with opKeys := tset (fun _ => none) t.opKeys k x }
/-- The operator slots enrolled. -/
def enrolled (t : Trust) : List Nat := (List.range 8).filter fun k => (opKey' t k).isSome

/-- The 68-byte key at an address. -/
def keyAt (m : Mem) (a : Nat) : PubKey :=
  let l := byteDwords (memLoad m a 68)
  ⟨Config.oidType (l.headD 0), l⟩

/-- Checks of Table 18.9. -/
def actionOk (d : Dev) (action arg plen : Nat) (key : PubKey) : Bool :=
  let t := d.trust
  if action = 2 then decide (arg < 10)
  else if action = 3 then decide (arg < 8 ∧ opKey' t arg = none ∧ plen = 68 ∧ key.sigType < 2)
  else if action = 4 then decide (arg < 8 ∧ opKey' t arg ≠ none ∧ 1 < (enrolled t).length)
  else if action = 5 then decide (1 ≤ arg ∧ arg ≤ 0x3E80 ∧ d.act = [])
  else if action = 6 then
    decide (t.minSvn ≤ arg)
      && (match t.running with
          | some i => decide (arg ≤ (slotOf t i).svn)
          | none => false)
  else true

/-- The state a token check ends in: 2 accepted, else the first refusal of Table 18.10. -/
def tokenState (d : Dev) (m : Mem) (a len : Nat) (sigOk : Bool) : Nat :=
  let action := memField m (a + 1) 1
  let plen := memField m (a + 0x14) 2
  if trustOut d then 9
  else if memField m a 1 ≠ 1 ∨ action = 0 ∨ 6 < action ∨ 96 < plen ∨ len < 0x20 + plen then 3
  else if 8 ≤ memField m (a + 2) 1 ∨ opKey' d.trust (memField m (a + 2) 1) = none then 4
  else if memField m (a + 4) 8 ≠ d.part.serial % 18446744073709551616 then 5
  else if memField m (a + 0xC) 4 ≠ (if action = 1 then d.rep.tally.clearCnt else d.trust.tokenCnt) then 6
  else if ! sigOk then 7
  else if ! actionOk d action (memField m (a + 0x10) 4) plen (keyAt m (a + 0x20)) then 8
  else 2

/-- What an accepted token does (Table 18.9). -/
def tokenEffect (d : Dev) (action arg slot : Nat) (key : PubKey) : Dev :=
  if action ≤ 2 then modTrust d fun t => { t with held := some (action, arg, 60), heldKey := slot }
  else if action = 3 then
    raise (tally (modTrust d fun t => setOpKey t arg (some key)) 0x4305 arg 0) pgTRUST 4
  else if action = 4 then raise (tally (modTrust d fun t => setOpKey t arg none) 0x4306 arg 0) pgTRUST 4
  else if action = 5 then
    tally (wr (modTrust d fun t => { t with nodeId := arg }) pgPRB PRB.NODE_NODE_ID arg) 0x4307 arg 0
  else tally (modTrust d fun t => { t with minSvn := arg }) 0x4308 (arg % 65536) 0

/-- TOK_CTRL.GO; `sigOk`: the signature verifies under the key of the token's slot. -/
def tokenCheck (d : Dev) (m : Mem) (sigOk : Bool) : Dev :=
  let a := rd d pgTRUST TRUST.TOK_SRC_SRC * 4096
  let len := rd d pgTRUST TRUST.TOK_LEN_LEN
  if capBytes < a + len then setError d pgTRUST 0x4C
  else
    let action := memField m (a + 1) 1
    let slot := memField m (a + 2) 1
    let st := tokenState d m a len sigOk
    let d := modTrust d fun t => { t with held := none }
    let d := wr (wr d pgTRUST TRUST.TOK_STAT_STATE st) pgTRUST TRUST.TOK_STAT_ACTION action
    let d := raise (tally d (if st = 2 then 0x4303 else 0x4304) slot 0) pgTRUST 0
    if st ≠ 2 then d
    else
      let d := if action = 1 then d else modTrust d fun t => { t with tokenCnt := (t.tokenCnt + 1) % 4294967296 }
      tokenEffect d action (memField m (a + 0x10) 4) slot (keyAt m (a + 0x20))

/-- A held token expires, its seconds run out or in their last (R459). -/
def tokenExpire (d : Dev) : Dev :=
  match d.trust.held with
  | some (_, _, t) => if 1 < t then d else wr (modTrust d fun t => { t with held := none }) pgTRUST TRUST.TOK_STAT_STATE 11
  | none => d

/-- TRUST_CTRL.ENROLL_FIRST (R457). -/
def enrollFirst (d : Dev) (m : Mem) : Dev :=
  let a := rd d pgTRUST TRUST.TOK_SRC_SRC * 4096
  if trustOut d ∨ enrolled d.trust ≠ [] ∨ rd d pgMODE MODE.STRAP_BOOT_MODE ≠ 3 ∨ capBytes < a + 68 then setError d pgTRUST 0x58
  else raise (tally (modTrust d fun t => setOpKey t 0 (some (keyAt m a))) 0x4305 0 0) pgTRUST 4

end Sys2Proof.Machine
end

