-- ==== Sys2Proof/Machine/Prov.lean ====
section
/-!
DEFINITION. Provoking faults: the injectors, group forcing and what leaving TEST ends (R474 to R483), and the mode
commands that enter and leave TEST and enter SAFE (R5, R399).
-/

namespace Sys2Proof.Machine

def injs8 : List Nat := List.range 8
def modInj (d : Dev) (i : Nat) (f : Inj → Inj) : Dev := { d with rep := setInj d.rep i (f (injOf d.rep i)) }

/-- INDEX lies in the range of its KIND (Table 20.1). -/
def injIndexOk (kind dir index : Nat) : Bool :=
  match kind with
  | 1 => decide (index < 512)
  | 2 => decide (index < if dir = 0 then 8 else 16)
  | 3 => decide (index % 16384 < if index < 0x4000 then 0x4000 else 8) && decide (index < 0x8000)
  | _ => false

/-- The configuration of INJ_TGT may be stored (R482). -/
def injTgtOk (kind action dir index : Nat) : Bool := decide (action ≠ 3) && injIndexOk kind dir index

def setTgt (d : Dev) (i kind action dir index : Nat) : Dev :=
  wr (wr (wr (wr d pgPROV (INJ.INJ_TGT_KIND i) kind) pgPROV (INJ.INJ_TGT_ACTION i) action) pgPROV (INJ.INJ_TGT_DIR i) dir)
    pgPROV (INJ.INJ_TGT_INDEX i) index

/-- The write keeps the configuration in force. -/
def sameTgt (d : Dev) (i kind action dir index : Nat) : Bool :=
  decide (rd d pgPROV (INJ.INJ_TGT_KIND i) = kind ∧ rd d pgPROV (INJ.INJ_TGT_ACTION i) = action
    ∧ rd d pgPROV (INJ.INJ_TGT_DIR i) = dir ∧ rd d pgPROV (INJ.INJ_TGT_INDEX i) = index)

/-- A held unit is released: it follows alone (R477). -/
def releaseUnit (d : Dev) (i : Nat) : Dev :=
  match (injOf d.rep i).held with
  | some [_, kind, index, dir] =>
    let back (d : Dev) : Dev := { d with rep := releaseHeld d.rep kind index dir 8 0 }
    if kind = 2 ∧ dir = 0 then
      match heldTxOf d index with
      | some (m, _) => back (setHeldTx d index (some (m, true)))
      | none => back d
    else if kind = 2 then (if (heldRxOf d index).isSome then releaseRx d index else back d)
    else if kind = 3 then
      let k := if index < 0x4000 then index else 0x10000 + (index - 0x4000)
      let q := queueOf d.rep k
      let d := back d
      match q.kept with
      | some h =>
        let d := { d with rep := setQueue d.rep k { q with items := h :: q.items, kept := none } }
        { d with rep := pumpQ d d.rep k }
      | none => d
    else back d
  | _ => d

/-- A write of 1 to ARM, with the configuration beside it (R474, R476, R482): while ARMED only the same one. -/
def injArm (d : Dev) (i kind action dir index : Nat) : Dev :=
  if d.mode ≠ .test ∨ ¬ injTgtOk kind action dir index
      ∨ ((injOf d.rep i).state = 1 ∧ ¬ sameTgt d i kind action dir index) then setError d pgPROV (0x80 + 0x20 * i)
  else
    let d := wr (setTgt d i kind action dir index) pgPROV (INJ.INJ_TGT_ARM i) 1
    modInj d i fun x =>
      { x with state := 1, seen := 0, last := 0, lfsr := BitVec.ofNat 16 (rd d pgPROV (INJ.INJ_SPC_SEED i)) }

/-- Injection ends in a state, and a held unit is released. -/
def injEnd (st : Nat) (i : Nat) (d : Dev) : Dev :=
  releaseUnit (modInj (wr d pgPROV (INJ.INJ_TGT_ARM i) 0) i fun x => { x with state := st }) i

/-- A write of 0 to ARM (R476); the configuration written with it is stored under R482. -/
def injDisarm (d : Dev) (i kind action dir index : Nat) : Dev :=
  if sameTgt d i kind action dir index then injEnd 0 i d
  else if (injOf d.rep i).state = 1 ∨ ¬ injTgtOk kind action dir index then setError d pgPROV (0x80 + 0x20 * i)
  else injEnd 0 i (setTgt d i kind action dir index)

/-- STOP_ALL (R476). -/
def injStopAll (d : Dev) : Dev := forEach injs8 (injEnd 0) d

/-- A held frame has waited 60 s, or a held item 10 ms. -/
def injTimeout (d : Dev) (i : Nat) : Dev :=
  match (injOf d.rep i).held with
  | some [_, kind, _, _] => if kind = 2 ∨ kind = 3 then releaseUnit d i else d
  | _ => d

/-- The sources set in FRC_MASK. -/
def frcSources (d : Dev) : List Nat :=
  (List.range 256).filter fun s => nbit (rd d pgPROV (PROV.FRC_MASK_MASK (s / 32))) (s % 32)

/-- FORCE_GO (R479): every set source in one collector cycle, with the real events of the same cycle. -/
def forceGo (d : Dev) (cycle : Nat) (real : List Nat) : Dev :=
  if (hdr d pgPROV).lock ∨ d.mode ≠ .test ∨ ¬ (frcSources d).all fun s => (srcInfo s).isSome then
    faultEvents (setError d pgPROV 0x40) cycle (joinEvents [] real)
  else raise (faultEvents d cycle (joinEvents (frcSources d) real)) pgPROV 8

/-! Entering and leaving TEST -/

/-- OFF of a probe takes effect in TEST (R190, R197). -/
def refreshProbes (d : Dev) : Dev := forEach d.act refreshProbe d

/-- A switch follows its override as it stands now, or none of it (R48). -/
def applyForce (p s : Nat) (d : Dev) : Dev := switchDrive d p s (forceOf d p s)
def dropForce (p s : Nat) (d : Dev) : Dev := switchDrive d p s 0

/-- What leaving TEST ends: the switches' overrides, injectors, loopbacks, and the fields that act in TEST only (R48, R77,
R273, R279, R332, R412, R474). A foreground calibration in progress goes on to its end (DESIGN CHOICE, log entry 57: R65
asks for TEST at its start). -/
def leaveTest (d : Dev) : Dev :=
  let d := forEach ports4 (fun p d => dropForce p 1 (dropForce p 0 d)) d
  let d := forEach injs8 (fun i d => if (injOf d.rep i).state = 1 then injEnd 3 i d else releaseUnit d i) d
  let d := lbWrite d 0
  let d := forEach convs12 (fun i d => wr d (pgCONV i) CONV.CONV_CTRL_INPUT_SEL 0) d
  let d := d.regs.foldl (fun d e =>
    if e.1 % 4096 = 0x44 ∧ pgNPS 0 ≤ e.1 / 4096 ∧ e.1 / 4096 < pgNPS 1024 then wr d (e.1 / 4096) NPS.NPS_CFG_EN 0x7F else d) d
  let d := forEach ports4 (fun p d => wr d (pgTX p) TX.TX_CTRL_TEST_UNMUTE 0) d
  calLeaveTest (wr d pgFLT FLT.FLT_CFG_FORCE_REACT 0)

/-- MODE_CMD is refused: a command Table 0.5 does not list, or an Ovminte runtime still reloading (R399, R405). -/
def cmdBusy (d : Dev) : Bool := d.rep.flt.away.contains reloading || decide (d.supply ≠ .on)

/-- CMD 1 (Table 0.5, row 6). -/
def enterTest (d : Dev) : Dev :=
  if cmdBusy d ∨ ¬ (d.mode = .service ∨ d.mode = .recovery ∨ d.mode = .safe) then cmdRefused d 1
  else
    let d := { d with testFromSafe := decide (d.mode = .safe) }
    let d := setMode d .test 6
    cmdDone (refreshProbes (forEach ports4 (fun p d => applyForce p 1 (applyForce p 0 d)) (forEach d.act offStarts d))) 1

/-- CMD 2 (rows 7 and 8). -/
def exitTest (d : Dev) : Dev :=
  if cmdBusy d ∨ d.mode ≠ .test then cmdRefused d 2
  else
    let safe := d.testFromSafe
    let d := leaveTest d
    let d := if safe then setMode (dithAbort d) .safe 8 else setMode d .recovery 7
    cmdDone (forEach d.act offError (refreshProbes d)) 2

/-- CMD 3 (row 9). -/
def enterSafe (d : Dev) : Dev :=
  if cmdBusy d ∨ ¬ (d.mode = .service ∨ d.mode = .recovery ∨ d.mode = .test) then cmdRefused d 3
  else
    let test := decide (d.mode = .test)
    let d := refreshProbes (setMode (dithAbort (if test then leaveTest d else d)) .safe 9)
    cmdDone (if test then forEach d.act offError d else d) 3

end Sys2Proof.Machine
end

