-- ==== Sys2Proof/Machine/Pages.lean ====
section
/-!
DEFINITION. The common header's actions (R386 to R396): commit and cancel, soft reset, LOCK, ENABLE, INT_MASK.
-/

namespace Sys2Proof.Machine

/-! LOCK (R391) -/

def locked (d : Dev) (page : Nat) : Bool := (hdr d page).lock
/-- A write of 1 to a WO field, or one that would change RW or RWS fields, of a locked page has no effect on them. -/
def unlessLocked (d : Dev) (page off : Nat) (act : Dev → Dev) : Dev := if locked d page then setError d page off else act d
/-- A write that keeps the present value of a locked field is no refusal. -/
def unlessChanged (d : Dev) (page : Nat) (f : Fld) (v : Nat) (act : Dev → Dev) : Dev :=
  if locked d page ∧ rd d page f ≠ v % 2 ^ f.wd then setError d page f.off else act d

/-- A write of INJ_TGT (Table 20.1), all of it RW. -/
def tgtWrite (d : Dev) (i arm kind action dir index : Nat) (act : Dev → Dev) : Dev :=
  let off := 0x80 + 0x20 * i
  let word := 2147483648 * arm + 268435456 * kind + 67108864 * action + 33554432 * dir + index
  if locked d pgPROV ∧ peek d pgPROV off ≠ word then setError d pgPROV off else act d

/-- LOCK (R391). -/
def pageLock (d : Dev) (page : Nat) : Dev := if occupied page then modHdr d page fun h => { h with lock := true } else d

/-! Commits (R394, R395) -/

/-- SHADOW_CTRL.COMMIT; `ticks` are the air ticks left to the clock's next boundary. -/
def pageCommit (d : Dev) (page ticks : Nat) : Dev :=
  let pend (d : Dev) : Dev := modHdr d page fun h => { h with pending := true }
  if ¬ occupied page then d
  else
    unlessLocked d page 0x20 fun d =>
      if (hdr d page).pending then d
      else
        match (kindOf page).1 with
        | .seg => setLate (pend d) page ticks
        | .loop => setLate (pend d) page ticks
        | .air => setLate (pend d) page ticks
        | .port => portCommit d (kindOf page).2
        | .tx => pend d
        | .emk => pend d
        | .monSeq =>
          if d.mon.phase = .stopped then seqTake (pend d)
          else if d.mon.phase = .wait then
            let d := waitTake (pend d)
            if d.mon.cur = .none then monBoundary d else monShown d
          else pend d
        | _ => d

/-- Kinds of pages whose commits a boundary of an air clock takes. -/
def timedKind : PageKind → Bool
  | .seg | .loop | .air => true
  | _ => false

/-- SHADOW_CTRL.CANCEL. -/
def pageCancel (d : Dev) (page ticks : Nat) : Dev :=
  if ¬ occupied page then d
  else
    unlessLocked d page 0x20 fun d =>
      let off (d : Dev) : Dev := setLate (modHdr d page fun h => { h with pending := false }) page 307200
      if (hdr d page).pending ∧ (timedKind (kindOf page).1 = false ∨ takenAt d 0 page = false ∨ cutoff d page ≤ ticks) then off d
      else setError d page 0x20

/-! Soft reset (R390) -/

/-- Pages whose registers belong to a page: those of its window's records too. -/
def ownsPage (d : Dev) (page p : Nat) : Bool :=
  decide (p = page)
    || match (kindOf page).1 with
       | .npSegw => decide (0x10000 ≤ p ∧ p < 0x10400)
       | .npGrpw => decide (0x11000 ≤ p ∧ p < 0x11400)
       | .thmSegw => decide (0x12000 ≤ p ∧ p < 0x12400)
       | .air => (airRt d (kindOf page).2).patSegs.any fun n => decide (p = pgPAT n)
       | _ => false

def fldMask (f : Fld) : Nat := (2 ^ f.wd - 1) * 2 ^ f.lo

/-- The bits of a register that a soft reset leaves: the Granary's, straps and the state of the world outside, the marks of
R44, the output of a DC feed (R56), and what other blocks decide. -/
def softKeep (page off : Nat) : Nat :=
  regGran (rkey page off) |||
    match (kindOf page).1 with
    | .hostGlb => if off = 0x40 ∨ off = 0x5C then 4294967295 else if off = 0x44 then 3 else 0
    | .glbClk => if off = 0x40 then 4294967295 else 0
    | .glbMode => if off = 0x4C then 4294967295 else 0
    | .port => if off = 0x48 then fldMask PORT.BAND_STAT_UNTESTED else 0
    | .dcf => if off = 0x4C then fldMask DCF.DCF_STAT_STATE else 0
    | .ext => if off = 0x44 then fldMask EXT.EXT_STAT_MOD_PRESENT + fldMask EXT.EXT_STAT_LOS else 0
    | .lnkGlb => if off = 0x60 then fldMask LNK.LNK_STAT_MODEM else 0
    | .tx => if off = 0x68 then fldMask TX.DPD_STAT_NO_ENGINE else 0
    | .emk => if off = 0x4C then fldMask EMK.EM_STAT_UNAVAILABLE else 0
    | .shed => if off = 0x44 then 3221225472 else 0
    | .pwrGlb => if off = 0x48 then fldMask PWR.PWR_STAT_SHED else 0
    | .thmGlb => if off = 0xE0 then fldMask THM.THM_STAT_SHED else 0
    | _ => 0

def softTable (d : Dev) (page : Nat) (t : Table Word) : Table Word :=
  t.foldl (fun m e =>
    if ownsPage d page (e.1 / 4096) then
      let k := BitVec.ofNat 32 (softKeep (e.1 / 4096) (e.1 % 4096))
      tset (regReset d.part) m e.1 ((e.2 &&& k) ||| (regReset d.part e.1 &&& ~~~ k))
    else m) t

def softRegs (d : Dev) (page : Nat) : Dev := { d with regs := softTable d page d.regs, shadow := softTable d page d.shadow }

/-- Injectors forget units of a kind of target. -/
def dropHeld (kind : Nat) (d : Dev) : Dev :=
  forEach injs8 (fun i d =>
    match (injOf d.rep i).held with
    | some [_, k, _, _] => if k = kind then modInj d i fun x => { x with held := none, skip := false } else d
    | _ => d) d

/-- A queue empties with its state (R390). -/
def queueReset (k : Nat) (d : Dev) : Dev :=
  let q := queueOf d.rep k
  let r := releaseHeld d.rep 3 (injQueue k) 0 8 0
  { d with rep := setQueue { r with storeUsed := r.storeUsed - qFill q } k queue0 }

/-- What a page's block does before its registers are reset. -/
def softBefore (d : Dev) (page : Nat) : Dev :=
  match kindOf page with
  | (.seg, n) => segCut d n
  | (.air, c) => clkDisable d c
  | (.ext, k) => goDown d k
  | (.prov, _) => lbWrite (injStopAll d) 0
  | (.tx, p) =>
    let d := branchDropped p d
    { d with mon := { d.mon with bursts := d.mon.bursts.filter fun b => decide (b.who ≠ .chain p) } }
  | (.loopGlb, _) => dithAbort d
  | (.npSegw, _) => forEach d.np.idle (fun n d => setIdle d n false) d
  | (.prbGlb, _) => forEach convs12 (fun b d => setBurst d b false) d
  | _ => d

/-- The typed state of a page's block after its registers are reset. -/
def softAfter (d : Dev) (page : Nat) : Dev :=
  match kindOf page with
  | (.seg, n) =>
    refreshPool (modIso (modSeg d n fun s =>
      { seg0 with deact := s.deact, held := s.held, gated := s.gated, wroteSets := s.wroteSets, keepSets := s.keepSets }) n
      fun _ => iso0)
  | (.loop, n) =>
    let d := modSeg d n fun s => { s with wroteSets := false, keepSets := [] }
    if isActive d n then ctxActivate d n else modCtx d n fun _ => ctx0
  | (.air, c) =>
    refreshRef (refreshShorts (refreshHolds (modAir d c fun a => { air0 with lostMode := a.lostMode, lifted := a.lifted })))
  | (.port, p) => refreshHold p 1 (refreshHold p 0 d)
  | (.dcf, p) => feedLoad d p (storedWords d p)
  | (.conv, i) =>
    refreshAllDegraded (modConv d fun c =>
      { c with running := c.running.filter (fun e => decide (e.1 ≠ i)), spur := c.spur.filter (· ≠ i),
               quiet := tset (fun _ => 0) c.quiet i 0 })
  | (.convGlb, _) => modConv d fun c => { c with saveWait := false, all := false }
  | (.tx, p) => txGo (modChain d p fun c => { chain0 with load := if c.load = 2 then 2 else 0 }) p
  | (.emk, p) => npEnd (modChain d p fun c => { c with cleanRun := 0, emission := false, sweeping := false }) 5 p
  | (.npGlb, _) => { d with np := { d.np with cmds := [] } }
  | (.prbGlb, _) => refreshProbes (linkTidy (wr d pgPRB PRB.NODE_NODE_ID d.trust.nodeId))
  | (.lnkGlb, _) => refreshNb (linkTidy (dropHeld 2 { d with lnk := lnk0 }))
  | (.lnkLsn, _) => linkTidy (modLnk d fun k => { k with rx := [], heldRx := [] })
  | (.lnkTx, _) => linkTidy (modLnk d fun k => { k with talk := [], heldTx := [], cfgWait := [] })
  | (.ext, k) => modExt d k fun x => { ext0 with conts := x.conts }
  | (.monGlb, _) =>
    { d with mon := { mon0 with bursts := d.mon.bursts.filter fun b => match b.who with | .chain _ => true | _ => false } }
  | (.pwrGlb, _) => thermApply (modPwr d fun p => { p with sinceChange := 5, underRun := 0 })
  | (.thmGlb, _) => dcfStartAll (txGoAll (thermApply (modPwr d fun p => { p with sensors := [], cool := [] })))
  | (.ring, _) => { d with rep := { d.rep with rings := [] } }
  | (.dma, _) => setInflight d
  | (.cap, _) => setUsed { d with capChs := [] }
  | (.gq, _) => forEach (List.range 8) (fun g d => queueReset (qGlob g) d) d
  | (.queue, i) => forEach [0, 1, 2, 3] (fun j d => queueReset (4 * i + j) d) d
  | (.glbIrq, _) => { d with rep := { d.rep with errValid := false, errPage := 0, errCnt := 0 } }
  | (.prov, _) => { d with rep := { d.rep with inj := [] } }
  | (.loopGlb, _) => { d with trace := trace0 }
  | (.fltGlb, _) =>
    let l := (List.range 256).filter fun s => d.rep.flt.sticky.getLsbD s && ! d.rep.flt.live.getLsbD s
    let d := { d with rep := modFlt d.rep fun f => { f with first := collector0.first } }
    unsilence (forEach l (fun s d => stickyOne (s / 32) s d) d)
  | (.fltSrc, _) => { d with rep := modFlt d.rep fun f => { f with cnt := [] } }
  | (.talGlb, _) => { d with rep := modTally d.rep fun t => { t with dropped := 0, torn := 0, wall := 0 } }
  | (.talRead, _) => { d with rep := modTally d.rep fun t => { t with fetch := none, exporting := none } }
  | (.boot, _) => modBoot d fun b => { b with clrAlt := false }
  | (.img, _) => modTrust d fun t => { t with install := none }
  | (.trust, _) => modTrust d fun t => { t with held := none }
  | (.wvl, _) => checkEngines d
  | _ => d

/-- The header after a soft reset: ERROR, LOCK and ENABLE stay. -/
def softHdr (h : Hdr) : Hdr := { hdr0 with enable := h.enable, lock := h.lock, error := h.error, errOffs := h.errOffs }

/-- The page returns to its state at power-on. -/
def softReset (d : Dev) (page : Nat) : Dev :=
  let was := rdB d page WVL.WVL_STAT_ISOLATED
  let wall := d.rep.tally
  let d := setLate (modHdr (softAfter (softRegs (softBefore d page) page) page) page softHdr) page 307200
  match (kindOf page).1 with
  | .wvl => if was then raise d page 0 else d
  | .talGlb =>
    if (hdr d page).enable then d
    else { d with rep := modTally d.rep fun t => { t with dropped := wall.dropped, torn := wall.torn } }
  | _ => d

/-- A write of 1 to SOFT_RESET. -/
def pageSoftReset (d : Dev) (page : Nat) : Dev :=
  if ¬ occupied page then d
  else if (d.mode = .test ∨ d.mode = .safe) ∧ locked d page = false then softReset d page
  else setError d page 0x08

/-! ENABLE (R389) -/

/-- The CONTAINED sources that isolate a page. -/
def isolators (page : Nat) : List Nat :=
  match kindOf page with
  | (.wvl, k) => [96 + k]
  | (.talGlb, _) => [224, 225]
  | (.talSnap, _) => [224, 225]
  | (.talRead, _) => [224, 225]
  | (.grn, _) => [224, 225]
  | (.boot, _) => [227]
  | (.img, _) => [227]
  | (.trust, _) => [227]
  | _ => []

/-- A write of ENABLE. -/
def pageEnable (d : Dev) (page : Nat) (en : Bool) : Dev :=
  if ¬ occupied page then d
  else
    let was := (hdr d page).enable
    if en = was then d
    else if locked d page then setError d page 0x08
    else if en then
      if (isolators page).any fun s => d.rep.flt.sticky.getLsbD s then setError d page 0x08
      else
        let d := modHdr (softReset d page) page fun h => { h with enable := true }
        if page = pgTAL then tallyBack d else d
    else if d.mode ≠ .test then setError d page 0x08
    else
      match isolators page with
      | s :: _ => isolateBlock d s
      | [] => isolatePage page d

/-! INT_MASK (R393) -/

/-- A write that clears the mask of set INT_RAW bits is one interrupt event. -/
def maskWrite (d : Dev) (page : Nat) (v : Word) : Dev :=
  if ¬ occupied page then d
  else
    let h := hdr d page
    let bits := (h.raw &&& h.mask &&& ~~~ v).toNat
    let d := modHdr d page fun h => { h with mask := v }
    if bits = 0 then d else { d with rep := pageEvent d (vecEvent d d.rep page) page bits }

end Sys2Proof.Machine
end

