-- ==== Sys2Proof/Machine/RegWrite.lean ====
section
/-!
DEFINITION. A bus write to any register (R10 to R13, R386 to R392), with the refusals of each page.
-/

namespace Sys2Proof.Machine

/-- A field's value in the written word. -/
def fv (v : Nat) (f : Fld) : Nat := v / 2 ^ f.lo % 2 ^ f.wd
def fvS (v : Nat) (f : Fld) : Int := s16 (fv v f)

/-- Every assigned bit of a register. -/
def RegRow.known (r : RegRow) : Nat := r.rw ||| r.rws ||| r.w1c ||| r.w1s ||| r.wo ||| r.rc ||| r.ro

/-- Store the RW bits, clear the W1C bits written 1, and put the RWS bits into the shadow bank (R11). -/
def storeRow (d : Dev) (p off v : Nat) (r : RegRow) : Dev :=
  let w := BitVec.ofNat 32 v
  let rw := BitVec.ofNat 32 r.rw
  let rws := BitVec.ofNat 32 r.rws
  let a := (reg d p off &&& ~~~ rw) ||| (w &&& rw)
  let d := setReg d p off (a &&& ~~~ (w &&& BitVec.ofNat 32 r.w1c))
  if r.rws = 0 then d else setSh d p off ((regSh d p off &&& ~~~ rws) ||| (w &&& rws))

/-- A value within bounds. -/
def within (x : Nat) (lo hi : Nat) : Bool := decide (lo ≤ x ∧ x ≤ hi)

/-- A span of capture memory: base in 4 KiB, length in bytes. -/
def spanOk (base len : Nat) : Bool := decide (base * 4096 + len ≤ capBytes)

/-! Refusals: the write of a value that is not stored at all -/

/-- Of a SEG page (R97, R211): levels are signed (R8). -/
def badSeg (d : Dev) (n off v : Nat) : Bool :=
  if off = 0x78 then decide (rd d (pgSEG n) SEG.WIDTH < 2 * (BitVec.ofNat 32 v).toInt.natAbs)
  else if off = 0x804 then ! within (fv v SEG.PRB_LEVEL_REL) 200 800
  else if off = 0x80C then decide (800 < fvS v SEG.ISO_CFG_MARGIN) || ! within (fv v SEG.ISO_CFG_CREDIT_UP) 1 200
  else if off = 0x810 then
    ! within (fv v SEG.ISO_TIME_INT_TIME) 16 10000 || decide (fv v SEG.ISO_TIME_MAXAGE * 100 < 2 * fv v SEG.ISO_TIME_INT_TIME)
  else if off = 0x814 then decide (1200 < fvS v SEG.CAUT_CFG_DROP) || decide (2200 < fvS v SEG.CAUT_CFG_FIRST)
  else if off = 0x818 then ! within (fv v SEG.GUARD_CFG_CYCLES) 1 1024
  else if off = 0x828 then decide (6 < fv v SEG.CANC_CFG_MU)
  else false

/-- Of a LOOP page (R181). -/
def badLoop (off v : Nat) : Bool :=
  if off = 0x54 then decide (2200 < fv v LOOP.MAN_GAIN_GAIN)
  else if off = 0x58 then decide (2200 < fv v LOOP.GAIN_LIM_CFG_MAX) || decide (2200 < fv v LOOP.GAIN_LIM_FLOOR)
  else if off = 0x6C then decide (fv v LOOP.FE_CFG_TIME = 0)
  else false

/-- Of LNK_GLB (R244). -/
def badLnk (off v : Nat) : Bool :=
  if off = 0x44 then ! within (fv v LNK.LNK_TIMER_HELLO_INT) 10 3600 || ! within (fv v LNK.LNK_TIMER_REPORT_INT) 5 3600
  else if off = 0x48 then ! within (fv v LNK.LNK_HOLD_HOLD) 10 3600 || decide (fv v LNK.LNK_HOLD_STALE < 60)
  else if off = 0x4C then
    decide (800 < fvS v LNK.LNK_MARGIN_LOOP_MARGIN) || ! within (fv v LNK.LNK_MARGIN_RELEASE_HYST) 20 200
  else if off = 0x50 then ! within (fv v LNK.LNK_DET_DET_TH) 200 600 || ! within (fv v LNK.LNK_DET_CAPTURE) 40 400
  else if off = 0x54 then decide (400 < fvS v LNK.LNK_TXP_TX_BOOST)
  else if off = 0x58 then ! within (fv v LNK.LNK_WAIT_ACK_WAIT) 1 600
  else if off = 0x5C then ! within (fv v LNK.LNK_CPL_CPL_TIME) 500 60000
  else false

/-- Of the protection pages (R273). -/
def badNp (off v : Nat) : Bool :=
  if off = 0x40 then decide (fv v NP.NP_TIME_WATCH < 60)
  else if off = 0x44 then ! within (fv v NP.NP_TONE_TONE_CNT) 1 16
  else if off = 0x48 then decide (400 < fvS v NP.NP_ISO_ISO_LOW_TH)
  else if off = 0x4C then decide (fv v NP.NP_OVL_OVL_EVENTS = 0) || decide (fv v NP.NP_OVL_OVL_PERIODS = 0)
  else if off = 0x50 then ! within (fv v NP.NP_NR_NR_EXCESS) 20 400 || ! within (fv v NP.NP_NR_PL_MIN) 800 2400
  else false
def badEsc (off v : Nat) : Bool :=
  let c := (off - 0x40) / 4
  let start := fv v (ESC.ESC_START c)
  let top := fv v (ESC.ESC_TOP c)
  decide (7 ≤ c) || ! within start 1 4 || decide (top < start) || decide (4 < top)
    || ! within (fv v (ESC.ESC_TRIM_MAX c)) 1 10
def badNps (off v : Nat) : Bool :=
  if off = 0x44 then decide (fv v NPS.NPS_CFG_N_IDLE = 0)
  else if off = 0x48 then ! within (fv v NPS.NPS_QCFG_IDLE_DROP) 20 600 || ! within (fv v NPS.NPS_QCFG_ACT_TH) 20 400
  else false
def badGrp (off v : Nat) : Bool :=
  if off = 0x40 then decide (fv v GRP.GRP_SEL_GRP = 0)
  else if off = 0x48 then decide (600 < fvS v GRP.GRP_NR_NR_MARGIN)
  else false

/-- Of TX and EMK pages (R293). -/
def badTx (p off v : Nat) : Bool :=
  if off = 0x48 then
    decide (fvS v TX.PWR_LIM_LIMIT < 0 ∨ rated p < fvS v TX.PWR_LIM_LIMIT) || decide (fv v TX.PWR_LIM_REL_RATE = 0)
  else if off = 0x54 then decide (fvS v TX.LOAD_CFG_RL_WARN ≤ fvS v TX.LOAD_CFG_RL_TRIP)
  else if off = 0x60 then decide (6 < fv v TX.DPD_CFG_MU)
  else if off = 0x64 then ! within (fv v TX.DPD_TIME_CAP_LEN) 10 1000 || ! within (fv v TX.DPD_TIME_ADAPT_INT) 10 10000
  else false
def badEmk (off v : Nat) : Bool :=
  if off = 0x40 then decide (fv v EMK.EM_CFG_AVG = 0) || decide (fv v EMK.EM_CFG_CNT = 0)
  else if off = 0x44 then decide (200 < fvS v EMK.EM_LVL_HYST)
  else if off = 0x48 then ! within (fv v EMK.EM_TIME_INTERVAL) 50 10000
  else false

/-- Of THM_GLB (R354): THR of a sensor, SUB_OFFS, CLASS of an external sensor. -/
def badThm (d : Dev) (off v : Nat) : Bool :=
  if 0x40 ≤ off ∧ off < 0x78 then
    decide (10 ≤ (off - 0x40) / 4) && decide (2 ≤ fv v (THM.SNS_CLASS ((off - 0x40) / 4)))
  else if 0x80 ≤ off ∧ off < 0xB8 then
    let i := (off - 0x80) / 4
    let t := fvS v (THM.SNS_LIM_THR i)
    if i < 10 then decide ((snsThr d.part.grade i : Int) < t) else decide (t < -400 ∨ 1250 < t)
  else if 0xC0 ≤ off ∧ off < 0xE0 then
    decide (600 < (fvS v (THM.ZONE_SUB_OFFS ((off - 0xC0) / 4))).natAbs)
  else false

/-- Of the ring, DMA and capture pages (R384). -/
def badRing (d : Dev) (off v : Nat) : Bool :=
  let r := (off - 0x40) / 0x20
  let o := (off - 0x40) % 0x20
  let en := rdB d pgRING (RING.RING_CFG_EN r)
  if o = 0 then decide (v % 4096 ≠ 0) || (en && decide (v ≠ rd d pgRING (RING.RING_BASE_LO_BASE r)))
  else if o = 4 then en && decide (v ≠ rd d pgRING (RING.RING_BASE_HI_BASE r))
  else if o = 8 then decide (v % 4 ≠ 0) || (en && decide (v ≠ rd d pgRING (RING.RING_WB_LO_WB r)))
  else if o = 0xC then en && decide (v ≠ rd d pgRING (RING.RING_WB_HI_WB r))
  else if o = 0x10 then
    ! within (fv v (RING.RING_CFG_LOG2 r)) 6 20 || (en && decide (fv v (RING.RING_CFG_LOG2 r) ≠ rd d pgRING (RING.RING_CFG_LOG2 r)))
  else false
def badDma (d : Dev) (off v : Nat) : Bool :=
  let c := (off - 0x40) / 0x40
  let o := (off - 0x40) % 0x40
  let en := rdB d pgDMA (DMA.DMA_CFG_EN c)
  if o = 0 then decide (v % 4096 ≠ 0) || (en && decide (v ≠ rd d pgDMA (DMA.DESC_LO_DESC_BASE c)))
  else if o = 4 then en && decide (v ≠ rd d pgDMA (DMA.DESC_HI_DESC_BASE c))
  else if o = 8 then decide (v % 4 ≠ 0) || (en && decide (v ≠ rd d pgDMA (DMA.DWB_LO_DMA_WB c)))
  else if o = 0xC then en && decide (v ≠ rd d pgDMA (DMA.DWB_HI_DMA_WB c))
  else if o = 0x10 then
    ! within (fv v (DMA.DMA_CFG_LOG2 c)) 4 16 || (en && decide (fv v (DMA.DMA_CFG_LOG2 c) ≠ rd d pgDMA (DMA.DMA_CFG_LOG2 c)))
  else false
def badCap (d : Dev) (off v : Nat) : Bool :=
  let c := (off - 0x40) / 0x20
  let o := (off - 0x40) % 0x20
  if o = 0 then capRunning d c || decide (4 < fv v (CAP.CAP_SRC_KIND c))
  else if o = 4 ∨ o = 8 then capRunning d c
  else if o = 0xC then
    decide (fv v (CAP.CAP_CTRL_MODE c) = 3)
      || (capRunning d c && decide (fv v (CAP.CAP_CTRL_MODE c) ≠ rd d pgCAP (CAP.CAP_CTRL_MODE c)
            ∨ fv v (CAP.CAP_CTRL_DMA_CH c) ≠ rd d pgCAP (CAP.CAP_CTRL_DMA_CH c)))
  else false

/-- Of the route entries (R402): the entry as the write would leave it. -/
def badRoute (d : Dev) (off v : Nat) : Bool :=
  if 0x100 ≤ off ∧ off < 0x300 then
    let e := (off - 0x100) / 8
    let hi := decide (off % 8 = 0)
    let g (f : Fld) (a : Bool) : Nat := if a then fv v f else rd d pgIRQ f
    let en := g (IRQ.ROUTE_A_EN e) hi
    let first := g (IRQ.ROUTE_A_FIRST e) hi
    let last := g (IRQ.ROUTE_A_LAST e) hi
    let sh := g (IRQ.ROUTE_B_SHIFT e) (! hi)
    let vec := g (IRQ.ROUTE_B_VEC e) (! hi)
    (decide (en = 1) && (decide (last < first) || decide (2047 < vec + (last - first) / 2 ^ sh)))
      || (! hi && decide (13 < sh))
  else false

/-- Of an injector's configuration (R482). -/
def badInj (d : Dev) (off v : Nat) : Bool :=
  let i := (off - 0x80) / 0x20
  let o := (off - 0x80) % 0x20
  let armed := decide ((injOf d.rep i).state = 1)
  let mode := rd d pgPROV (INJ.INJ_SEL_MODE i)
  if o = 4 then
    armed || decide (fv v (INJ.INJ_SEL_MODE i) = 3)
      || (decide (fv v (INJ.INJ_SEL_MODE i) = 2)
          && decide (rd d pgPROV (INJ.INJ_SPC_EVERY i) = 0 ∨ rd d pgPROV (INJ.INJ_POS_COUNT i) = 0))
  else if o = 8 then armed || (decide (mode = 2) && decide (fv v (INJ.INJ_POS_COUNT i) = 0))
  else if o = 0xC then armed || (decide (mode = 2) && decide (fv v (INJ.INJ_SPC_EVERY i) = 0))
  else decide (o = 0x10) && armed

/-- The write is not stored, and the page's ERROR status is set. `p` is the record page behind a window. -/
def badWrite (d : Dev) (p off v : Nat) : Bool :=
  match kindOf p with
  | (.seg, n) => badSeg d n off v
  | (.loop, _) => badLoop off v
  | (.loopGlb, _) => decide (off = 0x70) && ! within (fv v LGLB.DITH_CTRL_AMP) 1 10
  | (.prbGlb, _) =>
    if off = 0x44 then ! within (fv v PRB.SOUND_CFG_LEN) 1 1000 || decide (400 < fv v PRB.SOUND_CFG_BOOST)
    else decide (off = 0x48) && decide (400 < fv v PRB.SURVEY_CFG_BOOST)
  | (.lnkGlb, _) => badLnk off v
  | (.npGlb, _) => badNp off v
  | (.npEsc, _) => badEsc off v
  | (.npSeg, _) => badNps off v
  | (.npGrpw, _) => badGrp off v
  | (.npGrp, _) => badGrp off v
  | (.tx, p) => badTx p off v
  | (.emk, _) => badEmk off v
  | (.ext, _) => decide (off = 0x4C) && decide (1000 < (fvS v EXT.FIBRE_CFG_ASYM).natAbs)
  | (.monGlb, _) => decide (off = 0x60) && ! within (fv v MON.CAL_VFS_V_CAL) 1000 2450
  | (.pwrGlb, _) => decide (off = 0x44) && decide (fv v PWR.PWR_CAP_CAP ≠ 0) && ! within (fv v PWR.PWR_CAP_CAP) 100 380
  | (.thmGlb, _) => badThm d off v
  | (.hostGlb, _) =>
    if off = 0x48 then decide (fv v HOST.AGE_LEVEL_INT = 0)
    else decide (off = 0x58) && decide (23 < fv v HOST.CAP_WIN_BASE)
  | (.ring, _) => badRing d off v
  | (.dma, _) => badDma d off v
  | (.cap, _) => badCap d off v
  | (.gq, _) => decide ((off - 0x40) % 0x100 = 4) && decide (v % 2 ^ 24 < 4)
  | (.queue, _) => decide ((off - 0x40) % 0x100 = 4) && decide (v % 2 ^ 24 < 4)
  | (.glbIrq, _) => badRoute d off v
  | (.prov, _) => decide (0x80 ≤ off) && badInj d off v
  | (.snap, _) =>
    if off = 0x4C then decide (11 < fv v SNAP.SNAP_CFG_COUNT)
    else decide (0x50 ≤ off) && decide (fv v (SNAP.SNAP_ENT_OFFSET ((off - 0x50) / 4)) % 4 ≠ 0)
  | (.talRead, _) =>
    if off = 0x58 then decide (v = 0) || ! spanOk (rd d pgTRD TRD.EXP_DEST_DEST) (128 * v)
    else decide (off = 0x5C) && ! spanOk v (128 * rd d pgTRD TRD.EXP_CNT_COUNT)
  | (.boot, _) =>
    decide (off = 0x44) && (! within (fv v BOOT.BOOT_CFG_SURVEY_TIME) 1 600 || decide (fv v BOOT.BOOT_CFG_AIR_TIME = 0)
      || decide (fv v BOOT.BOOT_CFG_RAMP_TIME = 0))
  | (.img, _) =>
    if off = 0x4C then ! spanOk v (rd d pgIMG IMG.IMG_LEN_LEN)
    else decide (off = 0x50) && ! spanOk (rd d pgIMG IMG.IMG_SRC_SRC) v
  | (.trust, _) =>
    if off = 0x44 then ! spanOk v (rd d pgTRUST TRUST.TOK_LEN_LEN)
    else if off = 0x48 then ! spanOk (rd d pgTRUST TRUST.TOK_SRC_SRC) v
    else if off = 0x60 then ! spanOk v 2948
    else decide (off = 0xA0) && decide (12 < fv v TRUST.KEY_SEL_KEY)
  | _ => false

/-! Effects of a write that is stored -/

/-- A verdict of a check outside the registers, free where a plain write starts it. -/
def freeBit (d : Dev) : Bool := decide (Config.freeValue d.free % 2 = 1)
def useFree (d : Dev) : Dev := { d with free := d.free + 1 }

/-- DCF_CTRL: VSEL with ENABLE, then RELEASE (R50, R53, R54). -/
def writeDcf (d : Dev) (p v : Nat) : Dev :=
  let pg := pgDCF p
  let vsel := fv v DCF.DCF_CTRL_VSEL
  let en := fv v DCF.DCF_CTRL_ENABLE
  let ilim := rd d pg DCF.DCF_ILIM_ILIMIT
  if (vsel ≠ rd d pg DCF.DCF_CTRL_VSEL ∧ dcfState d p ≠ dcfOFF) ∨ (en = 1 ∧ ¬ dcfFits d p 1 vsel ilim) then setError d pg 0x40
  else
    let d := dcfEnable (wr d pg DCF.DCF_CTRL_VSEL vsel) p (decide (en = 1)) 0
    if fv v DCF.DCF_CTRL_RELEASE = 1 then dcfRelease d p else d
/-- DCF_ILIM (R50). -/
def writeIlim (d : Dev) (p v : Nat) : Dev :=
  let pg := pgDCF p
  let x := fv v DCF.DCF_ILIM_ILIMIT
  if ! within x 5 100 || (rdB d pg DCF.DCF_CTRL_ENABLE && ! dcfFits d p 1 (rd d pg DCF.DCF_CTRL_VSEL) x) then setError d pg 0x44
  else wr d pg DCF.DCF_ILIM_ILIMIT x

/-- TR_CFG (R48): code 3 is not stored; an override acts in TEST, and a non-zero one elsewhere is an ERROR. -/
def writeForce (p s v : Nat) (d : Dev) : Dev :=
  let x := fv v (forceFld s)
  if x = 3 then setError d (pgPORT p) 0x4C
  else
    let same := decide (x = rd d (pgPORT p) (forceFld s))
    let d := wr d (pgPORT p) (forceFld s) x
    let d := if x ≠ 0 ∧ d.mode ≠ .test then setError d (pgPORT p) 0x4C else d
    if same then d else applyForce p s d

/-- CONV_CTRL (R65, R68, R77). The reserved code 3 of INPUT_SEL is stored, has no effect and sets no ERROR of its own (DESIGN
CHOICE, log entry 68). -/
def writeConv (d : Dev) (i v : Nat) : Dev :=
  let pg := pgCONV i
  let d := wr (wr d pg CONV.CONV_CTRL_BG_EN (fv v CONV.CONV_CTRL_BG_EN)) pg CONV.CONV_CTRL_INPUT_SEL (fv v CONV.CONV_CTRL_INPUT_SEL)
  let d := if fv v CONV.CONV_CTRL_INPUT_SEL ≠ 0 ∧ d.mode ≠ .test then setError d pg 0x44 else txGoAll d
  if fv v CONV.CONV_CTRL_CAL_START = 1 then calStart d i else d

/-- A table word of a SEG page goes to the shadow: its table is being rebuilt, and a copy in progress skips it (R105,
R106). A write after SEAL and before the commit sets BUILDING again: R106 speaks only of the first write after a commit
(DESIGN CHOICE, log entry 68). -/
def writeTable (d : Dev) (n off : Nat) : Dev :=
  let coef := decide (off = 0x50 ∨ (0x100 ≤ off ∧ off < 0x300))
  let mask := decide (0x900 ≤ off ∧ off < 0x980)
  let canc := decide (0xA00 ≤ off ∧ off < 0xC00)
  if coef || mask || canc then
    let busy := rdB d (pgSEG n) SEG.COEF_STAT_COPYING
    modSeg (wr d (pgSEG n) SEG.COEF_STAT_BUILDING 1) n fun s =>
      { s with wroteCoef := s.wroteCoef || coef, wroteMask := s.wroteMask || mask, wroteCanc := s.wroteCanc || canc,
               keepWords := if busy ∧ ¬ s.keepWords.contains off then off :: s.keepWords else s.keepWords }
  else if off = 0x54 then modSeg d n fun s => { s with wroteShift := true }
  else d

def writeSeg (d : Dev) (n off v : Nat) (r : RegRow) : Dev :=
  let pg := pgSEG n
  if off = 0x58 then (if v % 2 = 1 then coefSeal d n false else d)
  else if off = 0x60 then (if v % 2 = 1 then syncReset d n else d)
  else
    let d := writeTable (storeRow d pg off v r) n off
    if off = 0x6C then refreshDegraded n d
    else if off = 0x78 then modSeg d n fun s => { s with toneNew := true }
    else if off = 0x800 then (if fv v SEG.PRB_CFG_OFF = 1 ∧ d.mode ≠ .test then setError d pg 0x800 else d)
    else d

def writeLoop (d : Dev) (n off v : Nat) (r : RegRow) : Dev :=
  if off = 0xA0 then (if v % 2 = 1 then coefSeal d n true else d)
  else
    let pg := pgLOOP n
    let d := storeRow d pg off v r
    if 0x100 ≤ off then
      let busy := rdB d pg LOOP.COEF_STAT_COPYING
      modSeg (wr d pg LOOP.COEF_STAT_BUILDING 1) n fun s =>
        { s with wroteSets := true, keepSets := if busy ∧ ¬ s.keepSets.contains off then off :: s.keepSets else s.keepSets }
    else if off = 0x54 ∧ d.written = true then manCopy n d
    else d

/-- LOOP_GLB: TRACE_CTRL and DITH_CTRL with their actions (R174 to R178). -/
def writeLglb (d : Dev) (off v : Nat) (r : RegRow) : Dev :=
  if off = 0x68 then
    let d := if fv v LGLB.TRACE_CTRL_ARM = 1 then
        traceArm d (fv v LGLB.TRACE_CTRL_PRE) (fv v LGLB.TRACE_CTRL_TRIG_SLOT) (fv v LGLB.TRACE_CTRL_TRIG_SRC)
      else storeRow d pgLGLB off v r
    if fv v LGLB.TRACE_CTRL_FORCE = 1 then traceTrigger d else d
  else if off = 0x70 then
    let d := if fv v LGLB.DITH_CTRL_START = 1 then
        dithStart d (fv v LGLB.DITH_CTRL_AMP) (fv v LGLB.DITH_CTRL_CTX) (fv v LGLB.DITH_CTRL_HALF)
      else storeRow d pgLGLB off v r
    if fv v LGLB.DITH_CTRL_STOP = 1 then dithAbort d else d
  else storeRow d pgLGLB off v r

/-- A pattern record, through the window of clock c (R137): the record belongs to that clock's banks from then on. -/
def writePat (d : Dev) (c n off v : Nat) (r : RegRow) : Dev :=
  if (defSh d n).clock ≠ c then setError d (pgAIR c) off
  else
    let d := forEach ((List.range 16).filter (· ≠ c)) (fun k d =>
      if (airRt d k).patSegs.contains n then
        modAir d k fun a => { a with wrotePat := a.wrotePat.filter (· ≠ n), patSegs := a.patSegs.filter (· ≠ n) }
      else d) d
    modAir (storeRow d (pgPAT n) off v r) c fun a =>
      { a with wrotePat := insertNat n a.wrotePat, patSegs := insertNat n a.patSegs }

def writeAir (d : Dev) (c off v : Nat) (r : RegRow) : Dev :=
  let pg := pgAIR c
  let was := rd d pg AIR.REF_CFG_J13_TYPE
  let d := storeRow d pg off v r
  if 0x800 ≤ off then modAir d c fun a => { a with wroteAct := true }
  else if off = 0xD0 then
    refreshRef (if rd d pg AIR.REF_CFG_J13_TYPE = was then d else wr d pg AIR.REF_STAT_J13_PRESENT 0)
  else d

/-- TX_CTRL (R279, R280, R283). -/
def writeTx (d : Dev) (p v : Nat) : Dev :=
  let pg := pgTX p
  let d := wr d pg TX.TX_CTRL_TEST_UNMUTE (fv v TX.TX_CTRL_TEST_UNMUTE)
  let d := if fv v TX.TX_CTRL_EN = 1 then txEnable d p else txGo (wr d pg TX.TX_CTRL_EN 0) p
  if fv v TX.TX_CTRL_LOAD_RELEASE = 1 then loadRelease d p else d

/-- NP_CMD (R260): reserved codes are refused. -/
def npWrite (d : Dev) (op kind level cond index : Nat) : Dev :=
  if op = 0 then d
  else if 3 < op ∨ kind = 3 ∨ (op = 1 ∧ level = 3) then setError d pgNP 0x54
  else npQueue d op kind level cond index

/-- NB_CMD (R235, R236). -/
def nbWrite (d : Dev) (op id : Nat) : Dev :=
  if op = 1 then nbPin d id else if op = 2 then nbUnpin d id else if op = 3 then nbRemove d id else d

/-- LSN_CFG: a reception in progress is abandoned (R243). -/
def writeLsn (d : Dev) (l off v : Nat) (r : RegRow) : Dev :=
  if off % 16 ≠ 0 then storeRow d pgLSN off v r
  else
    let was := lsnSeg d l
    let d := modRx (storeRow d pgLSN off v r) l fun _ => rx0
    refreshNb (linkTidy (if lsnSeg d l = was then d else cinRestart l d))
/-- TLK_CFG: it waits while a frame is sent (R243). -/
def writeTlk (d : Dev) (t off v : Nat) (r : RegRow) : Dev :=
  if off % 8 ≠ 0 ∨ 8 ≤ t then storeRow d pgLTX off v r
  else if (sendingOf d t).isSome then
    modLnk d fun k => { k with cfgWait := tset (fun _ => none) k.cfgWait t (some (BitVec.ofNat 32 v)) }
  else linkTidy (modTalk (storeRow d pgLTX off v r) t fun k => { k with wait := none, back := none })

def writeExt (d : Dev) (k v : Nat) : Dev :=
  let pg := pgEXT k
  let en := fv v EXT.EXT_CTRL_EN
  let run := fv v EXT.EXT_CTRL_RUN_EN
  let d := if en = rd d pg EXT.EXT_CTRL_EN then d else extEnable d k (decide (en = 1))
  let d := if run = rd d pg EXT.EXT_CTRL_RUN_EN then d else extRunEnable d k (decide (run = 1))
  if fv v EXT.EXT_CTRL_RETRAIN = 1 then extRetrain d k else d

def writeMon (d : Dev) (off v : Nat) (r : RegRow) : Dev :=
  if off = 0x40 then
    let d := monEnable d (decide (fv v MON.MON_CTRL_EN = 1))
    if fv v MON.MON_CTRL_RESTART = 1 then monRestart d else d
  else if off = 0x5C then
    let op := fv v MON.CAL_CTRL_OP
    let ch := fv v MON.CAL_CTRL_CH
    if op = 0 then d else if op = 1 then calZero d ch else if op = 2 then calFullScale d ch else setError d pgMON 0x5C
  else storeRow d pgMON off v r

def writeThm (d : Dev) (off v : Nat) (r : RegRow) : Dev :=
  if 0x40 ≤ off ∧ off < 0x68 then d
  else if off = 0xE4 then
    let op := fv v THM.MAP_CMD_OP
    let i := fv v THM.MAP_CMD_SENSOR
    if op = 0 then d else if op = 1 then mapOut d i else if op = 2 then mapRestore d i else setError d pgTHM 0xE4
  else storeRow d pgTHM off v r

/-- RING_CFG and DMA_CFG (R370, R377). -/
def writeRing (d : Dev) (off v : Nat) (r : RegRow) : Dev :=
  let i := (off - 0x40) / 0x20
  if (off - 0x40) % 0x20 = 0x10 then
    let was := rd d pgRING (RING.RING_CFG_EN i)
    ringEnable (wr (storeRow d pgRING off v r) pgRING (RING.RING_CFG_EN i) was) i (decide (fv v (RING.RING_CFG_EN i) = 1))
  else storeRow d pgRING off v r
def writeDma (d : Dev) (off v : Nat) (r : RegRow) : Dev :=
  let c := (off - 0x40) / 0x40
  let o := (off - 0x40) % 0x40
  if o = 0x10 then
    let d := storeRow d pgDMA off v r
    if rdB d pgDMA (DMA.DMA_CFG_EN c) then dmaFetch d c else setInflight (dmaOff c d)
  else if o = 0x20 then
    let d := if nbit v 2 then dmaAbort d c else d
    let d := if nbit v 1 then dmaSkip d c else d
    if nbit v 0 then dmaRetry d c else d
  else storeRow d pgDMA off v r

/-- A queue's registers (R365, R373, R375): a write of LEVEL is no crossing. -/
def writeQueue (d : Dev) (page off v : Nat) (r : RegRow) : Dev :=
  let b := (off - 0x40) / 0x100
  let o := (off - 0x40) % 0x100
  let k := if page = pgGQ then qGlob b else 4 * (page - 0x1000) + b
  if o = 0 then
    let d := storeRow d page off v r
    { d with rep := pumpQ d d.rep k }
  else if o = 0xC then
    let q := queueOf d.rep k
    let q := { q with wmLatch := q.wmLatch && ! nbit v 30, overflow := q.overflow && ! nbit v 29 }
    { d with rep := setQueue d.rep k q }
  else if o = 0x18 then (if v % 2 = 1 then queueFlush d k 0 else d)
  else storeRow d page off v r

def writeMode (d : Dev) (off v : Nat) : Dev :=
  if off = 0x44 then
    let cmd := v % 16
    if cmd = 0 then d else if cmd = 1 then enterTest d else if cmd = 2 then exitTest d else if cmd = 3 then enterSafe d
    else if cmd = 4 then hostRestart d (v / 16777216) else cmdRefused d cmd
  else d

def writeFlt (d : Dev) (off v : Nat) (r : RegRow) : Dev :=
  if off = 0x44 then (if nbit v 31 then firstClear d 0 [] else d)
  else if 0x60 ≤ off ∧ off < 0x80 then stickyClear d ((off - 0x60) / 4) v
  else storeRow d pgFLT off v r

def writeTal (d : Dev) (off v : Nat) (r : RegRow) : Dev :=
  if off = 0x40 then (if v % 2 = 1 then tallyFlush d else d)
  else if off = 0x5C then { d with rep := modTally d.rep fun t => { t with wallLo := v } }
  else if off = 0x60 then wallSet d v
  else if off = 0x64 ∧ nbit v 31 = true then tallyClear d (v % 4)
  else storeRow d pgTAL off v r

def writeTrd (d : Dev) (off v : Nat) (r : RegRow) : Dev :=
  if off = 0x40 ∧ nbit v 31 = true then tallyRead d (fv v TRD.RD_CTRL_MODE) (fv v TRD.RD_CTRL_IDX)
  else if off = 0x60 ∧ nbit v 31 = true then tallyExport d (decide (v % 2 = 1))
  else storeRow d pgTRD off v r

def writeProv (d : Dev) (off v : Nat) (r : RegRow) : Dev :=
  if off = 0x40 then
    let d := if v % 2 = 1 then injStopAll d else d
    if nbit v 1 then forceGo (useFree d) (freeCycle d) [] else d
  else if off = 0x44 then lbWrite d v
  else if 0x80 ≤ off ∧ (off - 0x80) % 0x20 = 0 then
    let i := (off - 0x80) / 0x20
    let kind := fv v (INJ.INJ_TGT_KIND i)
    let action := fv v (INJ.INJ_TGT_ACTION i)
    let dir := fv v (INJ.INJ_TGT_DIR i)
    let index := fv v (INJ.INJ_TGT_INDEX i)
    if fv v (INJ.INJ_TGT_ARM i) = 1 then injArm d i kind action dir index
    else if (injOf d.rep i).state = 0 ∧ (injOf d.rep i).held = none then
      (if injTgtOk kind action dir index then setTgt d i kind action dir index else setError d pgPROV off)
    else injDisarm d i kind action dir index
  else storeRow d pgPROV off v r

def writeTrust (d : Dev) (m : Mem) (off v : Nat) (r : RegRow) : Dev × Mem :=
  if off = 0x4C then (if nbit v 31 then tokenCheck (useFree d) m (freeBit d) else d, m)
  else if off = 0x58 then (if v % 2 = 1 then enrollFirst d m else d, m)
  else if off = 0x5C then (if nbit v 31 then attest d m else (d, m))
  else (storeRow d pgTRUST off v r, m)

/-- CAP_CTRL: a stop by a plain write brings no samples with it, and a start's first sample is anywhere in the period. -/
def writeCap (d : Dev) (m : Mem) (off v : Nat) (r : RegRow) : Dev × Mem :=
  let c := (off - 0x40) / 0x20
  let d := storeRow d pgCAP off v r
  if (off - 0x40) % 0x20 = 0xC then
    let x := if nbit v 30 then capStop d m c [] else (d, m)
    (if nbit v 31 then capStart (useFree x.1) c (Config.freeValue x.1.free % 524288) else x.1, x.2)
  else (d, m)

/-- The effect of a write to a register behind page `page`, whose record page is `p`. -/
def writeReg (d : Dev) (m : Mem) (page p off v : Nat) (r : RegRow) : Dev × Mem :=
  match kindOf p with
  | (.glbMode, _) => (writeMode d off v, m)
  | (.glbIrq, _) =>
    (if off = 0x48 then { d with rep := { d.rep with errValid := d.rep.errValid && ! nbit v 31 } } else storeRow d p off v r, m)
  | (.prov, _) => (writeProv d off v r, m)
  | (.loopGlb, _) => (writeLglb d off v r, m)
  | (.air, c) => (writeAir d c off v r, m)
  | (.pattern, n) => (writePat d (page - 0x10) n off v r, m)
  | (.port, q) =>
    let d := if off = 0x4C then storeRow d p off v { r with rw := 0 } else storeRow d p off v r
    (if off = 0x4C then writeForce q 1 v (writeForce q 0 v d) else d, m)
  | (.dcf, q) => (if off = 0x40 then writeDcf d q v else if off = 0x44 then writeIlim d q v else storeRow d p off v r, m)
  | (.conv, i) => (if off = 0x44 then writeConv d i v else storeRow d p off v r, m)
  | (.convGlb, _) =>
    let d := if off = 0x40 ∧ nbit v 1 = true then calAll d else d
    (if off = 0x40 ∧ nbit v 0 = true then saveRequest d else d, m)
  | (.tx, q) => (if off = 0x40 then writeTx d q v else storeRow d p off v r, m)
  | (.npGlb, _) =>
    (if off = 0x54 then npWrite d (fv v NP.NP_CMD_OP) (fv v NP.NP_CMD_KIND) (fv v NP.NP_CMD_LEVEL) (fv v NP.NP_CMD_COND)
        (fv v NP.NP_CMD_INDEX)
     else storeRow d p off v r, m)
  | (.npSeg, _) => (storeRow (keepLate d p off) p off v r, m)
  | (.npGrp, _) => (storeRow (keepLate d p off) p off v r, m)
  | (.prbGlb, _) => (if off = 0x40 then nodeWrite d v else storeRow d p off v r, m)
  | (.lnkGlb, _) =>
    (if off = 0x40 then lnkEnable d (decide (v % 2 = 1))
     else if off = 0x98 then nbWrite d (fv v LNK.NB_CMD_OP) (fv v LNK.NB_CMD_ID) else storeRow d p off v r, m)
  | (.lnkLsn, _) => (writeLsn d ((off - 0x40) / 16) off v r, m)
  | (.lnkTx, _) => (writeTlk d ((off - 0x40) / 8) off v r, m)
  | (.ext, k) => (if off = 0x40 then writeExt d k v else storeRow d p off v r, m)
  | (.monGlb, _) => (writeMon d off v r, m)
  | (.thmGlb, _) => (writeThm d off v r, m)
  | (.hostGlb, _) => (if off = 0x44 then (if nbit v 1 then masterReady d else d) else storeRow d p off v r, m)
  | (.ring, _) => (writeRing d off v r, m)
  | (.dma, _) => (writeDma d off v r, m)
  | (.cap, _) => writeCap d m off v r
  | (.gq, _) => (writeQueue d p off v r, m)
  | (.queue, _) => (writeQueue d p off v r, m)
  | (.fltGlb, _) => (writeFlt d off v r, m)
  | (.talGlb, _) => (writeTal d off v r, m)
  | (.talRead, _) => (writeTrd d off v r, m)
  | (.boot, _) =>
    let d' := if off = 0x48 ∧ nbit v 0 = true then bootClrAlt d else d
    (if off = 0x48 then (if nbit v 1 then ftRun d' else d') else storeRow d p off v r, m)
  | (.img, _) =>
    (if off = 0x54 ∧ nbit v 31 = true then
        imageInstall (useFree (useFree d)) m (v % 2) (nbit v 1) (freeBit d) (freeBit (useFree d))
     else storeRow d p off v r, m)
  | (.trust, _) => writeTrust d m off v r
  | (.seg, n) => (writeSeg d n off v r, m)
  | (.loop, n) => (writeLoop d n off v r, m)
  | _ => (storeRow d p off v r, m)

/-- A header write, field by field in the order of R388. -/
def writeHdr (d : Dev) (page off v : Nat) : Dev :=
  if off = 0x08 then
    let d := if 8 ≤ v then setError d page off else d
    let d := pageEnable d page (nbit v 0)
    let d := if nbit v 1 then pageSoftReset d page else d
    if nbit v 2 then pageLock d page else d
  else if off = 0x0C then
    let d := if nbit v 2 then modHdr d page fun h => { h with error := false } else d
    if v &&& 0xF000FFF8 ≠ 0 then setError d page off else d
  else if off = 0x10 then modHdr d page fun h => { h with raw := h.raw &&& ~~~ BitVec.ofNat 32 v }
  else if off = 0x14 then maskWrite d page (BitVec.ofNat 32 v)
  else if off = 0x1C then (if v = 0 then d else faultForce (useFree d) page v (freeCycle d) [])
  else if off = 0x20 then
    let d := if v &&& 0xFFE0 ≠ 0 then setError d page off else d
    let d := if nbit v 4 then modHdr d page fun h => { h with refused := false } else d
    let d :=
      if (hdr d page).readActive = nbit v 2 then d
      else if locked d page then setError d page off
      else modHdr d page fun h => { h with readActive := nbit v 2 }
    let d := if nbit v 0 then pageCommit d page 307200 else d
    if nbit v 1 then pageCancel d page 307200 else d
  else if 0x24 ≤ off ∧ v ≠ 0 then setError d page off
  else d

/-- The part of a write that LOCK lets through (R391): its W1C and W1S bits. -/
def lockedBits (d : Dev) (p off v : Nat) (r : RegRow) : Nat :=
  (peekPlain d p off &&& (r.rw ||| r.rws)) ||| (v &&& (r.w1c ||| r.w1s))
def lockRefuses (d : Dev) (page p off v : Nat) (r : RegRow) : Bool :=
  decide (v &&& r.rw ≠ peek d page off &&& r.rw) || decide (v &&& r.rws ≠ (regSh d p off).toNat &&& r.rws)
    || decide (v &&& r.wo ≠ 0)

/-- An aligned 32-bit write (R10). -/
def busWrite (d : Dev) (m : Mem) (page off v : Nat) : Dev × Mem :=
  if ¬ occupied page then (d, m)
  else if off < 0x40 then (writeHdr d page off v, m)
  else
    let p := windowPage d page off
    match rowAt p off with
    | none => (if v = 0 then d else setError d page off, m)
    | some r =>
      let res := decide (v &&& r.known ≠ v)
      let d := if res then setError d page off else d
      let v := v &&& r.known
      if locked d page && lockRefuses d page p off v r then
        let d := setError d page off
        if r.w1c ||| r.w1s = 0 then (d, m) else writeReg d m page p off (lockedBits d p off v r) r
      else if badWrite d p off v then (setError d page off, m)
      else writeReg d m page p off v r

end Sys2Proof.Machine
end

