-- ==== Sys2Proof/Machine/Flags.lean ====
section
/-!
DEFINITION. What follows from the rest of the state at every instant: the alarm outputs (R471, Table 19.6).
-/

namespace Sys2Proof.Machine

/-- Every output is off while the engine is unpowered, and in START until the MONITOR step has passed. -/
def almOn (d : Dev) : Bool :=
  decide (d.supply = .on) && (decide (d.mode ≠ .start) || monitorPassed d)

/-- ALM0 conducts: RF is permitted. -/
def rfPermitted (d : Dev) : Bool :=
  ! d.rep.flt.silent && ! npSilent d && ! (zoneShut d 4 || zoneShut d 5 || zoneShut d 6 || zoneShut d 7)
    && decide (d.mode ≠ .safe)

/-- ALM3 conducts: the input, the hold-up store and the zones are sound. -/
def supplySound (d : Dev) : Bool :=
  let v := rd d pgPWR PWR.PWR_IN_VOLTAGE
  decide (4000 ≤ v ∧ v ≤ 6000) && ! rdB d pgPWR PWR.HOLD_STAT_WORN && zones8.all fun z => ! zoneShut d z

/-- The four outputs of Table 19.6. -/
def almOf (d : Dev) : List Bool :=
  [rfPermitted d, decide (d.mode = .service), npClear d, supplySound d].map fun b => b && almOn d

/-- The outputs follow their conditions. -/
def settle (d : Dev) : Dev := { d with alm := almOf d }

end Sys2Proof.Machine
end

