-- ==== Sys2Proof/Machine/Operands.lean ====
section
/-!
DEFINITION. Operand forms that several commands share.
-/

namespace Sys2Proof.Machine

/-- The key of a queue that a command names. -/
def queueKey : QueueId → Nat
  | .seg m => m
  | .glob g => qGlob g

/-- A read command returns the register's value as it stands before the read's own effects. -/
def answer (d : Dev) (page off : Nat) : Dev := emitD d (.readWord page off (peek d page off))

/-- A write to the MSI-X structures (R358). -/
def msixWrite (d : Dev) : MsixWrite → Dev
  | .entry v addr data masked => msixEntry d v addr.toNat data.toNat masked
  | .control en mask => msixControl d en mask

/-- A detection's operands as numbers. -/
def detOf (t : Nat) (e : Fin 4 × Int × Nat) : Det := ⟨e.1, e.2.1, e.2.2, t⟩

/-- A completion that does not bring its data: by the command's code a timeout, UR or CA, poisoned data (R379). -/
def dmaFail (d : Dev) (c err : Nat) : Dev := if dmaReady d c then dmaHalt d c (2 + err) else d

/-- How many bytes an access to the capture window covers. -/
def windowLen : WindowAccess → Nat
  | .read n => n
  | .write l => l.length

/-- The access lies within one 4 KiB block of the window (R357). -/
def inBlock (offset len : Nat) : Bool := decide (offset % 4096 + len ≤ 4096)

/-- The capture-memory byte that an offset of the window addresses (R380). -/
def windowAddr (d : Dev) (offset : Nat) : Nat := rd d pgHOST HOST.CAP_WIN_BASE * 1073741824 + offset

/-- The window reads zeros and discards writes where capture memory is not in use (R380). -/
def windowMem (d : Dev) (m : Mem) (offset : Nat) : WindowAccess → Dev × Mem
  | .read n =>
    let a := windowAddr d offset
    (emitD d (.windowRead a (if capUsable d then memLoad m a n else List.replicate n 0)), m)
  | .write l => (d, if capUsable d then memStore m (windowAddr d offset) l else m)

end Sys2Proof.Machine
end

