-- ==== Sys2Proof/Syntax.lean ====
section
/-!
DEFINITION. The commands of the block: one constructor per row of the opcode table, with its operands.
-/

namespace Sys2Proof

/-- A command. An index is the register block's own number; what a command finds in the world outside is an operand. -/
inductive Instr where
  /-- POWER_ON (R337). Operands: the three reads of each strap (R470): the two BOOT_MODE pins and MASTER_SEL. -/
  | powerOn (boot : BitVec 2 × BitVec 2 × BitVec 2) (agent : Bool × Bool × Bool)
  /-- POWER_FAIL_DECLARED (R342). Operands: `steps` of R27 complete in `len` hundredths of a millisecond; `wrote` records
  of the flush reach the areas when it does not commit, and one more may be torn. -/
  | powerFailDeclared (steps : Fin 5) (len : BitVec 16) (wrote : Nat) (torn : Bool)
  /-- MODE_CMD_ENTER_TEST (R399). -/
  | modeCmdEnterTest
  /-- MODE_CMD_LEAVE_TEST (R399). -/
  | modeCmdLeaveTest
  /-- MODE_CMD_ENTER_SAFE (R399). -/
  | modeCmdEnterSafe
  /-- HOST_RESTART (R400). -/
  | hostRestart (key : BitVec 8)
  /-- REG_WRITE (R10). Operands: the register of `page` at word `word`, byte offset 4 x word. -/
  | regWrite (page : Fin 16384) (word : Fin 1024) (value : Word)
  /-- PAGE_COMMIT (R394). Operands: `ticks` are the air ticks left to the next boundary of the clock that times the page. -/
  | pageCommit (page : Fin 16384) (ticks : Nat)
  /-- PAGE_CANCEL (R394). Operands: `ticks` as in PAGE_COMMIT. -/
  | pageCancel (page : Fin 16384) (ticks : Nat)
  /-- PAGE_SOFT_RESET (R390). -/
  | pageSoftReset (page : Fin 16384)
  /-- PAGE_LOCK (R391). -/
  | pageLock (page : Fin 16384)
  /-- PAGE_ENABLE_WRITE (R389). -/
  | pageEnableWrite (page : Fin 16384) (en : Bool)
  /-- INT_MASK_WRITE (R393). -/
  | intMaskWrite (page : Fin 16384) (mask : Word)
  /-- FAULT_FORCE_WRITE (R411). Operands: `real` are the sources whose own causes register an event in the same collector
  cycle. -/
  | faultForceWrite (page : Fin 16384) (bits : Word) (cycle : Fin 37500) (real : List (Fin 256))
  /-- LOOP_LATCH (R22). -/
  | loopLatch (x : LatchIn)
  /-- LOOP_EVALUATE (R150). -/
  | loopEvaluate
  /-- LOOP_GAIN_WRITE (R146). -/
  | loopGainWrite
  /-- DEACTIVATION_RAMP_DONE (R103). -/
  | deactivationRampDone (n : Fin 1024)
  /-- AIR_FRAME_BOUNDARY (R134). -/
  | airFrameBoundary (c : Fin 16) (x : ClkMeas) (a : ActInput)
  /-- ACT_HOST_EVENT (R132). -/
  | actHostEvent (c : Fin 16) (i : Fin 256) (x : ActInput)
  /-- ACT_MON_TRIGGER (R324). -/
  | actMonTrigger (c : Fin 16) (i : Fin 256) (x : ActInput)
  /-- ACT_CAPTURE_START (R381). -/
  | actCaptureStart (c : Fin 16) (i : Fin 256) (x : ActInput)
  /-- ACT_CAPTURE_STOP (R382). -/
  | actCaptureStop (c : Fin 16) (i : Fin 256) (x : ActInput)
  /-- ACT_MEAS_OPEN (R132). -/
  | actMeasOpen (c : Fin 16) (i : Fin 256) (x : ActInput)
  /-- ACT_MEAS_CLOSE (R132). -/
  | actMeasClose (c : Fin 16) (i : Fin 256) (x : ActInput)
  /-- ACT_SOUND_BURST (R192). -/
  | actSoundBurst (c : Fin 16) (i : Fin 256) (x : ActInput)
  /-- AIR_LOCK (R117). -/
  | airLock (c : Fin 16) (cell : Fin 1024) (snr : Int) (x : StepInput)
  /-- FRAME_NUMBER_READ (R121). Operands: `num` is the SFN or, for GSM, the FN that the next boundary begins, `k` its
  place in Table 5.4. -/
  | frameNumberRead (c : Fin 16) (num : Nat) (k : Fin 12)
  /-- AIR_HOLDOVER_ENTER (R119). -/
  | airHoldoverEnter (c : Fin 16)
  /-- AIR_LOST_ENTER (R130). -/
  | airLostEnter (c : Fin 16)
  /-- AIR_RELOCK (R128). -/
  | airRelock (c : Fin 16) (cell : Fin 1024) (snr : Int) (x : StepInput)
  /-- AIR_TIMING_JUMP (R128). -/
  | airTimingJump (c : Fin 16) (x : StepInput)
  /-- TDD_MUTE_LIFT (R131). -/
  | tddMuteLift (c : Fin 16) (n : Fin 1024)
  /-- FRAME_NOW_READ (R124). Operands: `tick` is the clock's TICK at the read. -/
  | frameNowRead (c : Fin 16) (tick : Fin 307200)
  /-- DEV_LOOP_READ (R144). -/
  | devLoopRead
  /-- REF_SOURCE_CHANGE (R31). Operands: `offs` is the frequency offset that REF_STAT shows. -/
  | refSourceChange (offs : Int)
  /-- J13_PRESENCE_CHANGE (R126). -/
  | j13PresenceChange (valid : Bool)
  /-- TDD_SWITCH_ACTION (R142). Operands: `period` are the air ticks between the clock's last timing step and the start of
  the pattern period. -/
  | tddSwitchAction (b : Fin 12) (slot : Fin 2) (tx : Bool) (period : Nat) (tick : Fin 960)
  /-- TR_SWITCH_DONE (R46). -/
  | trSwitchDone (p : Fin 4) (slot : Fin 2)
  /-- TDD_GATE_CHANGE (R142). Operands: `period` as in TDD_SWITCH_ACTION. -/
  | tddGateChange (n : Fin 1024) (opens : Bool) (period : Nat)
  /-- SEG_SYNC_RESET (R103). -/
  | segSyncReset (n : Fin 1024)
  /-- COEF_SEAL (R106). Operands: `loop` names the LOOP page instead of the SEG page. -/
  | coefSeal (n : Fin 1024) (loop : Bool)
  /-- SHADOW_COPY_DONE (R105). Operands: `loop` as in COEF_SEAL. -/
  | shadowCopyDone (n : Fin 1024) (loop : Bool)
  /-- INVALID_RUN_END (R104). -/
  | invalidRunEnd (n : Fin 1024)
  /-- TONE_WINDOW_END (R97). -/
  | toneWindowEnd (n : Fin 1024) (ratio : Int) (discard : Bool)
  /-- DITH_START (R174). -/
  | dithStart (amp : BitVec 4) (ctx : Fin 1024) (half : BitVec 8)
  /-- DITH_STOP (R175). -/
  | dithStop
  /-- TRACE_ARM (R177). -/
  | traceArm (pre : BitVec 12) (slot : Fin 4) (src : BitVec 3)
  /-- TRACE_FORCE (R177). -/
  | traceForce
  /-- BUF_DATA_READ (R179). -/
  | bufDataRead
  /-- ISO_ESTIMATE_DONE (R195). -/
  | isoEstimateDone (n : Fin 1024) (x : Estimate)
  /-- CANC_UPDATE_APPLY (R202). -/
  | cancUpdateApply (n : Fin 1024)
  /-- GUARD_WINDOW_END (R206). Operands: the window's three energies on one scale, and the isolation it measured. -/
  | guardWindowEnd (n : Fin 1024) (eHs eRs eNs : Nat) (iso : Int)
  /-- GUARD_FAIL_APPLY (R206). -/
  | guardFailApply (n : Fin 1024)
  /-- ISO_VALID_LAPSE (R197). -/
  | isoValidLapse (n : Fin 1024)
  /-- SOUND_BURST_END (R192). -/
  | soundBurstEnd (b : Fin 12)
  /-- NODE_ID_WRITE (R210). -/
  | nodeIdWrite (id : BitVec 14)
  /-- IR_DATA_READ (R196). -/
  | irDataRead (n : Fin 1024)
  /-- LNK_ENABLE (R214). -/
  | lnkEnable (en : Bool)
  /-- HELLO_TIMER (R234). -/
  | helloTimer
  /-- REPORT_TIMER (R234). -/
  | reportTimer
  /-- FRAME_TX_START (R223). -/
  | frameTxStart (t : Fin 8)
  /-- FRAME_TX_END (R221). -/
  | frameTxEnd (t : Fin 8)
  /-- DEAF_END (R224). -/
  | deafEnd (t : Fin 8)
  /-- PREAMBLE_DETECT (R226). Operands: `nf` is the noise density, each detection a spreading code, its level and its code
  phase. -/
  | preambleDetect (l : Fin 16) (nf : Int) (dets : List (Fin 4 × Int × Nat))
  /-- FRAME_SYNC_FOUND (R228). -/
  | frameSyncFound (l : Fin 16)
  /-- FRAME_SYNC_TIMEOUT (R228). Operands: `live` says whether the kept detection is still present. -/
  | frameSyncTimeout (l : Fin 16) (live : Bool)
  /-- FRAME_HEADER_DONE (R228). Operands: the decoded header (Table 8.1) and the CRC-8 that follows it; `live` as
  in FRAME_SYNC_TIMEOUT. -/
  | frameHeaderDone (l : Fin 16) (ver : BitVec 2) (typ : BitVec 4) (len : BitVec 6) (src dst : BitVec 14) (crc : BitVec 8)
      (live : Bool)
  /-- FRAME_PAYLOAD_DONE (R228). -/
  | framePayloadDone (l : Fin 16) (bytes : List Byte) (crc : BitVec 16)
  /-- RX_HELLO (R235). -/
  | rxHello
  /-- RX_COUPLING_REPORT (R237). -/
  | rxCouplingReport
  /-- RX_GAIN_YIELD (R234). -/
  | rxGainYield
  /-- RX_ACK (R225). -/
  | rxAck
  /-- YIELD_ACK_TIMEOUT (R225). -/
  | yieldAckTimeout (dst : BitVec 14)
  /-- CIN_ESTIMATE_DONE (R218). Operands: the estimate of a neighbour by the slot, or a bound where it is not detected. -/
  | cinEstimateDone (l : Fin 16) (id : BitVec 14) (rows : List Int) (bound : Int)
  /-- YIELD_EVAL_TIMER (R237). -/
  | yieldEvalTimer
  /-- NB_STALE (R235). -/
  | nbStale (id : BitVec 14)
  /-- NB_PIN (R235). -/
  | nbPin (id : BitVec 14)
  /-- NB_UNPIN (R236). -/
  | nbUnpin (id : BitVec 14)
  /-- NB_REMOVE (R236). -/
  | nbRemove (id : BitVec 14)
  /-- DONOR_OVERLOAD_QUIET (R249). -/
  | donorOverloadQuiet (n : Fin 1024)
  /-- PROT_CLIMB (R252). -/
  | protClimb (code : Fin 16) (idx : Fin 1024)
  /-- PROT_BACKOFF_EXPIRE (R256). -/
  | protBackoffExpire (code : Fin 16) (idx : Fin 1024)
  /-- PROT_WATCH_EXPIRE (R257). -/
  | protWatchExpire (code : Fin 16) (idx : Fin 1024)
  /-- NP_OPERATOR_OFF (R260). -/
  | npOperatorOff (kind level : BitVec 2) (index : Fin 1024)
  /-- NP_OPERATOR_ON (R260). -/
  | npOperatorOn (kind : BitVec 2) (index : Fin 1024)
  /-- NP_RELEASE_LATCHED (R260). -/
  | npReleaseLatched (kind : BitVec 2) (cond : Fin 16) (index : Fin 1024)
  /-- PATHLOSS_MEASURE (R264). -/
  | pathlossMeasure (g : Fin 1024) (p : Fin 2) (rx : Int)
  /-- PATHLOSS_HOLD_EXPIRE (R266). -/
  | pathlossHoldExpire (g : Fin 1024) (p : Fin 2)
  /-- QUIET_SYMBOL_DECISION (R268). -/
  | quietSymbolDecision (n : Fin 1024) (dens floor : Int)
  /-- NOISE_RISE_EVAL (R271). -/
  | noiseRiseEval (n : Fin 1024) (mean : Int)
  /-- TX_ENABLE (R280). -/
  | txEnable (p : Fin 4)
  /-- TX_BIAS_DONE (R280). -/
  | txBiasDone (p : Fin 4)
  /-- TX_STOP (R281). -/
  | txStop (p : Fin 4)
  /-- TX_DRAIN_OFF (R281). -/
  | txDrainOff (p : Fin 4)
  /-- BIAS_TRACK_UPDATE (R280). Operands: `idq` is the quiescent current that the temperature calibration calls for. -/
  | biasTrackUpdate (p : Fin 4) (idq : BitVec 16)
  /-- LOAD_MEASURE (R282). -/
  | loadMeasure (p : Fin 4) (refl : Int)
  /-- LOAD_RETRY (R283). -/
  | loadRetry (p : Fin 4)
  /-- LOAD_TRIES_RECOVER (R283). -/
  | loadTriesRecover (p : Fin 4)
  /-- LOAD_RELEASE (R283). -/
  | loadRelease (p : Fin 4)
  /-- DPD_CAPTURE (R286). Operands: the error of the set in force, whether the capture is kept, and the least-squares
  solution. -/
  | dpdCapture (p : Fin 4) (nmse : Int) (kept : Bool) (ls : List (Int × Int))
  /-- DPD_UPDATE_APPLY (R287). -/
  | dpdUpdateApply (p : Fin 4)
  /-- EM_SWEEP_DONE (R289). -/
  | emSweepDone (p : Fin 4) (margin : Option Int) (freq : Word)
  /-- EXT_SIGNAL_CHANGE (R315). -/
  | extSignalChange (k : Fin 4) (present los txFault : Bool) (rxPwr txPwr : Int)
  /-- EXT_BLOCK_LOCK (R315). -/
  | extBlockLock (k : Fin 4)
  /-- EXT_FRAME_LOCK (R299). Operands: `head` says whose receiver locks. -/
  | extFrameLock (k : Fin 4) (head : Bool)
  /-- EXT_FRAME_LOCK_LOSS (R299). Operands: `head` as in EXT_FRAME_LOCK. -/
  | extFrameLockLoss (k : Fin 4) (head : Bool)
  /-- EXT_FRAME_RX (R298). Operands: whether the marker is at its place, the 256 bits of the header, the last 32 its CRC, the 128 bytes
  of the control fragment, and how many rows arrived with a bad block (R305). -/
  | extFrameRx (k : Fin 4) (marker : Bool) (hdr : BitVec 224) (crc : BitVec 32) (frag : List Byte) (badRows : Nat)
  /-- RX_CAPS (R309). Operands: the 47 words of the message and its CRC. -/
  | rxCaps (k : Fin 4) (words : List Word) (crc : Word)
  /-- RX_ALARM (R312). -/
  | rxAlarm (k : Fin 4) (bits : BitVec 16)
  /-- RX_STATUS (R308). Operands: power, return loss and over-range count of each branch. -/
  | rxStatus (k : Fin 4) (a b : BitVec 16 × BitVec 16 × BitVec 16)
  /-- RX_ECHO_TIME (R313). -/
  | rxEchoTime (k : Fin 4) (tHead : Word)
  /-- EXT_RTT_MEASURE (R313). -/
  | extRttMeasure (k : Fin 4) (tLoop : Word)
  /-- CTRL_FRAG_TIMEOUT (R308). -/
  | ctrlFragTimeout (k : Fin 4) (seq : BitVec 12)
  /-- EXT_RETRAIN (R315). -/
  | extRetrain (k : Fin 4)
  /-- EXT_ENABLE (R315). -/
  | extEnable (k : Fin 4) (en : Bool)
  /-- EXT_RUN_ENABLE (R315). -/
  | extRunEnable (k : Fin 4) (en : Bool)
  /-- CAPS_DATA_READ (R317). -/
  | capsDataRead (k : Fin 4)
  /-- MON_ENABLE (R323). -/
  | monEnable (en : Bool)
  /-- MON_RESTART (R325). -/
  | monRestart
  /-- MON_CONVERSION_DONE (R320). Operands: `lag` is the start lag, in nanoseconds, of a triggered entry that this
  conversion held up. -/
  | monConversionDone (x0 x1 : Reading) (lag : Nat)
  /-- MON_ENTRY_DELAY_END (R323). -/
  | monEntryDelayEnd
  /-- MON_SERVICE_SLOT (R326). -/
  | monServiceSlot
  /-- MON_BURST_DONE (R328). -/
  | monBurstDone
  /-- MON_BURST_TIMEOUT (R328). -/
  | monBurstTimeout
  /-- MON_CAL_ZERO (R332). -/
  | monCalZero (ch : Fin 2)
  /-- MON_CAL_FULL_SCALE (R332). -/
  | monCalFullScale (ch : Fin 2)
  /-- MON_CAL_SAVE_DONE (R333). -/
  | monCalSaveDone
  /-- MON_RING_READ (R331). -/
  | monRingRead
  /-- PWR_CAP_COMPARE (R338). Operands: the mean input power in 0.1 W and the voltage in 10 mV. -/
  | pwrCapCompare (power volt : BitVec 16)
  /-- HOLD_ENERGY_MEASURE (R341). Operands: the usable energy in mJ. -/
  | holdEnergyMeasure (mj : BitVec 16)
  /-- SENSOR_READ (R344). Operands: one reading per internal sensor in 0.1 °C, none where it is out of its range. -/
  | sensorRead (raw : List (Option Int))
  /-- THERMAL_SHED_STEP (R348). -/
  | thermalShedStep (i : Fin 14)
  /-- ZONE_SHUTDOWN (R349). Operands: the comparator of sensor `i` at `t` tenths of a degree. -/
  | zoneShutdown (i : Fin 10) (t : Int)
  /-- ZONE_RESTART (R350). -/
  | zoneRestart (z : Fin 8)
  /-- SENSOR_MAP_OUT (R352). -/
  | sensorMapOut (i : Fin 16)
  /-- SENSOR_RESTORE (R352). -/
  | sensorRestore (i : Fin 16)
  /-- DCF_ENABLE_WRITE (R54). Operands: `cause` is a fault event in the same cycle: 0 none, 1 over-current, 2 arc. -/
  | dcfEnableWrite (p : Fin 4) (en : Bool) (cause : Fin 3)
  /-- DCF_RELEASE (R53). -/
  | dcfRelease (p : Fin 4)
  /-- DCF_OVERCURRENT_TRIP (R52). -/
  | dcfOvercurrentTrip (p : Fin 4)
  /-- DCF_ARC_DETECT (R52). -/
  | dcfArcDetect (p : Fin 4)
  /-- DCF_RAMP_DONE (R51). Operands: the output in 10 mV and mA. -/
  | dcfRampDone (p : Fin 4) (mv10 ma : BitVec 16)
  /-- DCF_RETRY (R52). -/
  | dcfRetry (p : Fin 4)
  /-- DCF_RETRY_RESET (R52). -/
  | dcfRetryReset (p : Fin 4)
  /-- DCF_OPEN_DETECT (R57). -/
  | dcfOpenDetect (p : Fin 4) (ma : BitVec 16)
  /-- DCF_OPEN_CLEAR (R57). -/
  | dcfOpenClear (p : Fin 4) (ma : BitVec 16)
  /-- CONV_CAL_START (R65). -/
  | convCalStart (i : Fin 12)
  /-- CONV_CAL_ALL (R65). -/
  | convCalAll
  /-- CONV_CAL_DONE (R66). Operands: the worst spur and residual errors; `found` is the temperature of the calibration and the
  corrections it found. -/
  | convCalDone (i : Fin 12) (spur gain offs : Int) (found : Int × List SubCorr)
  /-- CONV_CAL_SAVE (R69). -/
  | convCalSave
  /-- CONV_SAVE_DONE (R69). -/
  | convSaveDone (ok : Bool)
  /-- CONV_AUTO_SAVE (R69). -/
  | convAutoSave
  /-- CONV_BG_UPDATE (R68). -/
  | convBgUpdate (i : Fin 12) (ovr : Bool) (rms : Int) (est : List SubCorr)
  /-- CONV_SPUR_FAULT (R71). -/
  | convSpurFault (i : Fin 12) (spur : Int)
  /-- ADC_OVERRANGE (R63). Operands: an ADC or an observation receiver. -/
  | adcOverrange (i : Fin 12)
  /-- DAC_CLIP (R64). -/
  | dacClip (p : Fin 4)
  /-- PCIE_LINK_UP (R356). Operands: the negotiated link. -/
  | pcieLinkUp (width : Fin 17) (speed : Fin 5) (extTag mps128 : Bool)
  /-- PCIE_LINK_DOWN (R359). -/
  | pcieLinkDown
  /-- PCIE_FLR (R359). -/
  | pcieFlr
  /-- PCIE_HOT_RESET (R359). -/
  | pcieHotReset
  /-- PERST_ASSERT (R466). -/
  | perstAssert
  /-- MSIX_UNMASK (R358). -/
  | msixUnmask (x : MsixWrite)
  /-- MASTER_READY (R361). -/
  | masterReady
  /-- AGENT_RESET (R363). -/
  | agentReset
  /-- RING_DOORBELL (R370). -/
  | ringDoorbell (r : Fin 64) (tail : Word)
  /-- RING_ENABLE (R370). -/
  | ringEnable (r : Fin 64) (en : Bool)
  /-- RING_MOD_TIMER (R371). -/
  | ringModTimer (r : Fin 64)
  /-- QUEUE_FLUSH (R373). Operands: the queue, and how many words of an item in progress are still to come, 0 where none is. -/
  | queueFlush (q : QueueId × Fin 4)
  /-- LEVEL_REPORT_TIMER (R364). -/
  | levelReportTimer
  /-- DMA_DOORBELL (R377). -/
  | dmaDoorbell (c : Fin 16) (prod : Word)
  /-- DMA_DESC_DONE (R377). Operands: `data` are the bytes that a host-to-device descriptor brings. -/
  | dmaDescDone (c : Fin 16) (x : Desc) (data : List Byte)
  /-- DMA_COMPLETION_TIMEOUT (R379). Operands: `err`: 0 a timeout, 1 Unsupported Request or Completer Abort, 2 poisoned
  data. -/
  | dmaCompletionTimeout (c : Fin 16) (err : Fin 3)
  /-- DMA_RETRY (R379). -/
  | dmaRetry (c : Fin 16)
  /-- DMA_SKIP (R379). -/
  | dmaSkip (c : Fin 16)
  /-- DMA_ABORT (R379). -/
  | dmaAbort (c : Fin 16)
  /-- CAPTURE_START_CMD (R381). Operands: `offs` is the first sample's offset in the loop period. -/
  | captureStartCmd (c : Fin 32) (offs : Fin 524288)
  /-- CAPTURE_STOP_CMD (R382). Operands: `l` are the samples the capture ends with. -/
  | captureStopCmd (c : Fin 32) (l : List Sample)
  /-- CAPTURE_BUFFER_FULL (R382). -/
  | captureBufferFull (c : Fin 32) (l : List Sample)
  /-- STREAM_BLOCK_DONE (R383). Operands: the block's first sample's offset, its samples and the descriptor it fills. -/
  | streamBlockDone (c : Fin 32) (offs : Fin 524288) (l : List Sample) (x : Option Desc)
  /-- CAPTURE_WINDOW_ACCESS (R380). -/
  | captureWindowAccess (offset : Fin 1073741824) (acc : WindowAccess)
  /-- FAULT_DETECT (R407). -/
  | faultDetect (cycle : Fin 37500) (sources : List (Fin 256))
  /-- FAULT_CAUSE_END (R405). -/
  | faultCauseEnd (source : Fin 256)
  /-- WEEVIL_SUBSTITUTE (R29). -/
  | weevilSubstitute (k : Fin 32)
  /-- FAULT_STICKY_CLEAR (R408). -/
  | faultStickyClear (g : Fin 8) (bits : Word)
  /-- FIRST_FAULT_CLEAR (R409). Operands: `same` are the sources that register an event in the same collector cycle. -/
  | firstFaultClear (cycle : Fin 37500) (same : List (Fin 256))
  /-- TAL_FLUSH_CMD (R423). -/
  | talFlushCmd
  /-- TAL_FLUSH_TIMER (R423). -/
  | talFlushTimer
  /-- TAL_FLUSH_COMMIT (R423). -/
  | talFlushCommit
  /-- COUNTER_STORE_TIMER (R427). -/
  | counterStoreTimer
  /-- WALL_SET (R428). -/
  | wallSet (hi : Word)
  /-- TALLY_CLEAR (R432). -/
  | tallyClear (areas : BitVec 2)
  /-- TALLY_ERASE_DONE (R432). -/
  | tallyEraseDone
  /-- TALLY_READ (R433). -/
  | tallyRead (mode : BitVec 2) (idx : BitVec 19)
  /-- TALLY_FETCH_DONE (R433). -/
  | tallyFetchDone
  /-- TALLY_EXPORT (R434). -/
  | tallyExport (annex : Bool)
  /-- TALLY_EXPORT_DONE (R434). -/
  | tallyExportDone
  /-- START_STEP_DONE (R439). -/
  | startStepDone (x : StepIn)
  /-- START_STEP_TIMEOUT (R438). -/
  | startStepTimeout
  /-- START_RETRY (R443). -/
  | startRetry
  /-- SURVEY_PHASE_END (R442). -/
  | surveyPhaseEnd
  /-- GAIN_RAMP_PHASE_END (R442). -/
  | gainRampPhaseEnd
  /-- BOOT_CLR_ALT (R447). -/
  | bootClrAlt
  /-- FT_RUN (R447). -/
  | ftRun
  /-- FILTER_TEST_DONE (R447). Operands: the filter-bank positions out of limits. -/
  | filterTestDone (bad : List (Fin 4 × Fin 8))
  /-- IMAGE_INSTALL (R452). Operands: the verdicts on the signature and on the digest. -/
  | imageInstall (slot : Fin 2) (pref sigOk digestOk : Bool)
  /-- IMAGE_INSTALL_DONE (R452). -/
  | imageInstallDone (ok : Bool)
  /-- ATTEST (R455). -/
  | attest
  /-- TOKEN_CHECK (R459). Operands: `sigOk` is the verdict on the signature. -/
  | tokenCheck (sigOk : Bool)
  /-- TOKEN_HOLD_EXPIRE (R459). -/
  | tokenHoldExpire
  /-- ENROLL_FIRST (R457). -/
  | enrollFirst
  /-- INJ_ARM (R476). -/
  | injArm (i : Fin 8) (kind : BitVec 3) (action : BitVec 2) (dir : BitVec 1) (index : BitVec 16)
  /-- INJ_DISARM (R476). -/
  | injDisarm (i : Fin 8) (kind : BitVec 3) (action : BitVec 2) (dir : BitVec 1) (index : BitVec 16)
  /-- INJ_STOP_ALL (R476). -/
  | injStopAll
  /-- INJ_HOLD_TIMEOUT (R477). -/
  | injHoldTimeout (i : Fin 8)
  /-- PROV_FORCE_GO (R479). Operands: `real` as in FAULT_FORCE_WRITE. -/
  | provForceGo (cycle : Fin 37500) (real : List (Fin 256))
  /-- LB_EXT_WRITE (R481). -/
  | lbExtWrite (v : BitVec 8)
  /-- EXT_BLOCK_LOCK_LOSS (R315). -/
  | extBlockLockLoss (k : Fin 4)
  /-- EM_SWEEP_START (R289). -/
  | emSweepStart (p : Fin 4)
  /-- OVMINTE_RUNTIME_RELOAD (R405). -/
  | ovminteRuntimeReload
  /-- PCIE_LINK_SPEED_DROP (R383). -/
  | pcieLinkSpeedDrop (width : Fin 17) (speed : Fin 5)
deriving DecidableEq, Repr

end Sys2Proof
end

