-- ==== Sys2Proof/Machine/State.lean ====
section
/-!
DEFINITION. The machine's state: the waiting commands, the capture memory, and the engine.
-/

namespace Sys2Proof.Machine

/-- A command cannot be carried out, and the spec gives it no effect. -/
inductive Fault where
  /-- CAPTURE_WINDOW_ACCESS: an access that crosses a 4 KiB block, which BAR2 does not accept (R357). Safe: the
  machine stops where the spec says nothing. -/
  | crossesBlock
deriving DecidableEq, Repr

/-- A command has no meaning in the model. -/
inductive Refusal where
  /-- A command not modelled yet, by its mnemonic. No command of this model answers it. Safe. -/
  | notModelled (mnemonic : String)
deriving DecidableEq, Repr

/-- The state of the block. `pending` holds the waiting commands, and `ambient` what happens to the engine beside them, register
reads and the samples at its converters, both first in, first out; `cap` is capture memory by byte address (R380), and `dev` is
everything else. -/
structure State where
  pending : List Instr
  ambient : List Ambient
  cap : Mem
  dev : Dev
deriving DecidableEq, Repr

/-- The state before power-on: unpowered, START, every register at its reset value. -/
def State.reset : State := ⟨[], [], [], dev0 Config.part⟩

end Sys2Proof.Machine
end

