-- ==== Sys2Proof/Machine/Meaning.lean ====
section
/-!
DEFINITION. The form of every command's meaning.
-/

namespace Sys2Proof.Machine

/-- What a command answers. -/
abbrev Answer := Host.Outcome State Fault Refusal

/-- A command acts on the engine while that is powered (R337, R342); without power nothing acts. -/
def onDev (s : State) (f : Dev → Dev) : Answer :=
  if s.dev.supply = .on then .next { s with dev := settle (f s.dev) } else .next s

/-- A command acts on the engine and on capture memory. -/
def onMem (s : State) (f : Dev → Mem → Dev × Mem) : Answer :=
  if s.dev.supply = .on then
    let x := f s.dev s.cap
    .next { s with cap := x.2, dev := settle x.1 }
  else .next s

/-- Power-on acts on the unpowered engine; capture memory starts cleared. -/
def powerUp (s : State) (bootMode : Nat) (agent : Bool) : Answer :=
  if s.dev.supply = .waiting then .next { s with cap := [], dev := settle (powerOn s.dev bootMode agent) } else .next s

/-- An access to the capture window: one that crosses a block is not accepted. -/
def windowAccess (s : State) (offset : Nat) (x : WindowAccess) : Answer :=
  if inBlock offset (windowLen x) then onMem s fun d m => windowMem d m offset x else .fault .crossesBlock

end Sys2Proof.Machine
end

