-- ==== Sys2Proof/Machine/Code.lean ====
section
/-!
DEFINITION. The probe codes: sequences, codes of an identity, covers (R185, R186, Table 7.1), and the spectral mask (R191).
-/

namespace Sys2Proof.Machine

/-- Degree n of a code length; the powers below x^n of u's polynomial; d, e and the period of w (Table 7.1). -/
def codeDeg (len : Nat) : Nat := 10 + 2 * len
def codePoly : Nat → List Nat
  | 0 => [7, 0]
  | 1 => [6, 4, 1, 0]
  | 2 => [5, 3, 1, 0]
  | _ => [15, 13, 4, 0]
def codeD (len : Nat) : Nat := 2 ^ (codeDeg len / 2 + 1) + 1
def codeE (len : Nat) : Nat := 2 ^ (codeDeg len / 2) + 1
def codePw (len : Nat) : Nat := 2 ^ (codeDeg len / 2) - 1
/-- L = 2^n − 1. -/
def codeChips (len : Nat) : Nat := 2 ^ codeDeg len - 1

/-- u(t + 1), …, u(t + n) from u(t), …, u(t + n − 1). -/
def uNext (poly : List Nat) (s : List Bool) : List Bool :=
  s.drop 1 ++ [poly.foldl (fun a k => xor a (s.getD k false)) false]
def uFrom (poly : List Nat) : Nat → List Bool → List Bool
  | 0, s => s
  | t + 1, s => uFrom poly t (uNext poly s)
/-- u(t). -/
def codeU (len t : Nat) : Bool :=
  (uFrom (codePoly len) t (List.replicate (codeDeg len - 1) false ++ [true])).headD false

/-- c_N(t) = u(t) ⊕ v((t + i) mod L) ⊕ w((t + j) mod L). -/
def codeChip (len node t : Nat) : Bool :=
  let l := codeChips len
  let v := codeU len (codeD len * ((t + node / codePw len) % l) % l)
  let w := codeU len (codeE len * ((t + node % codePw len) % l) % l)
  xor (xor (codeU len t) v) w

/-- H[r][q] = (−1)^popcount(r AND q) is −1. -/
def coverNeg (r q : Nat) : Bool := ((List.range 4).filter fun i => nbit r i && nbit q i).length % 2 == 1

/-- The value of chip number c, counted from the start of the code, on branch code b (R185, R186): ±1. -/
def probeChip (len node b c : Nat) : Int :=
  let l := codeChips len
  if xor (codeChip len node (c % l)) (coverNeg b (c / l % 16)) then -1 else 1

/-- The chip of a frame: the fabric-common code, inverted by a symbol 1, one symbol to a code period (R219); none past its end. -/
def frameChip (sf : Nat) (syms : List Bool) (c : Nat) : Int :=
  let l := codeChips sf
  match syms[c / l]? with
  | some s => if xor (codeChip sf 0 (c % l)) s then -1 else 1
  | none => 0

/-- The mask's attenuation in level units at an offset in hertz, over ascending points of offset and attenuation, as a fraction
(R191): 60 dB outside the points, linear in dB between them. -/
def maskAtt (pts : List (Int × Nat)) (f : Int) : Int × Nat :=
  match pts with
  | [] => (1200, 1)
  | [(o, a)] => if f = o then (a, 1) else (1200, 1)
  | (o, a) :: (o', a') :: t =>
    if f < o then (1200, 1)
    else if f ≤ o' then ((a : Int) * (o' - o) + ((a' : Int) - a) * (f - o), (o' - o).toNat)
    else maskAtt ((o', a') :: t) f

end Sys2Proof.Machine
end

