-- ==== Sys2Proof/Machine/Signal.lean ====
section
/-!
DEFINITION. The signal path, one band-window sample at a time: converters, the Thresher, decimators, DC blocker, channel filter,
canceller, gain, probes, output branches and predistortion (R62 to R65, R74, R75, R77, R82 to R99, R104, R184 to R191, R199,
R221, R275, R284, R301, R477, R480).
-/

namespace Sys2Proof.Machine

/-! Arithmetic -/

def cadd (x y : Cx) : Cx := (x.1 + y.1, x.2 + y.2)
def csub (x y : Cx) : Cx := (x.1 - y.1, x.2 - y.2)
def cmul (x y : Cx) : Cx := (x.1 * y.1 - x.2 * y.2, x.1 * y.2 + x.2 * y.1)
def cscale (k : Int) (x : Cx) : Cx := (k * x.1, k * x.2)
def cquot (x : Cx) (k : Nat) : Cx := (quot x.1 k, quot x.2 k)
def csum (l : List Cx) : Cx := l.foldl cadd (0, 0)
/-- A filter over the last samples, newest first. -/
def fir (c : List Int) (x : List Cx) : Cx := csum (List.zipWith cscale c x)
/-- The coefficients of a linear-phase filter of odd length. -/
def symTaps (half : List Int) (centre : Int) : List Int := half ++ [centre] ++ half.reverse

/-- The 18-bit internal word, and a converter's 14 bits. -/
def sat18 (z : Int) : Int := max (-131072) (min 131071 z)
def clip14 (z : Int) : Int := max (-8192) (min 8191 z)
def csat18 (x : Cx) : Cx := (sat18 x.1, sat18 x.2)
/-- A filter's exact sum in 2^-17 is shifted right, rounded to nearest with ties towards +∞, and saturated (R87); whether either
component saturated. -/
def shiftWord (shift : Nat) (x : Cx) : Cx × Bool :=
  let y : Cx := (nearest x.1 (2 ^ (17 + shift)), nearest x.2 (2 ^ (17 + shift)))
  (csat18 y, decide (csat18 y ≠ y))

/-- 2^96 × 10^(k/2000), a level that may be negative being taken 163,840 steps further up. An amplitude between two steps lies
between theirs. -/
def ampStep (k : Int) : Nat := tenPow (k + 163840).toNat
def Ramp.amp (base : Nat) (r : Ramp) : Nat :=
  let k := r.steps base
  if 5 * r.num' base % (base : Int) ^ (r.exp + 1) = 0 then ampStep k
  else ampStep k + Config.ampOpen (r.num' base) % (ampStep (k + 1) - ampStep k + 1)
/-- A value times an amplitude, `den` being the amplitude that stands for one. -/
def byAmp (x : Cx) (amp den : Nat) : Cx := cquot (cscale amp x) den

/-! Converters (R63 to R65, R77, R480) -/

def convSmps (d : Dev) (i : Nat) : List ConvSmp := tget (fun _ => []) d.sig.conv i
def calRuns (d : Dev) (i : Nat) : Bool := d.conv.running.any fun e => decide (e.1 = i)
/-- INPUT_SEL takes effect in TEST alone (R77). -/
def inputSel (d : Dev) (i : Nat) : Nat := if d.mode = .test then rd d (pgCONV i) CONV.CONV_CTRL_INPUT_SEL else 0
/-- How many samples of a converter are kept: those of the 250 ns before the output of stage 10 (R101). -/
def convKept : Nat := 2458

/-- A DAC's output goes to its own OBS converter (R65, Table 3.7). -/
def dacLooped (d : Dev) (p : Nat) : Bool := calRuns d (4 + p) || decide (inputSel d (4 + p) = 1)

/-- What ADC or OBS converter i digitises in place of its input z, at place j of the band-window sample (Table 3.7). -/
def convInput (d : Dev) (i j : Nat) (z : Int) : Int :=
  let n := 20 * d.sig.t + j
  let sel := inputSel d i
  if calRuns d i ∨ sel = 1 then Config.comb i (n % 2560)
  else if (i < 4 ∧ sel = 2) ∨ (8 ≤ i ∧ sel = 3) then Config.noise i n
  else if 8 ≤ i ∧ (sel = 2 ∨ dacLooped d (i - 8) = true) then ((convSmps d (i - 4)).getD (19 - j) ⟨0, false, false, false⟩).code
  else z

/-- One sample: the code clamps with OVR; the 40 samples after a run carry INV, and a run that begins within them is the same event
(R63). A DAC's run has no recovery (R64). -/
def convTake (i : Nat) (z : Int) (d : Dev) : Dev :=
  let dac := decide (4 ≤ i ∧ i < 8)
  let out := decide (clip14 z ≠ z)
  let was := d.conv.overIn.contains i
  let left := if was && ! dac then recoverySamples else tget (fun _ => 0) d.conv.recov i
  let d := if out && ! was && decide (left = 0) then (if dac then overrange d i else adcOverrange d i) else d
  let smp : ConvSmp := ⟨clip14 z, out, ! out && decide (0 < left), calRuns d i⟩
  let d := modConv d fun c =>
    { c with overIn := if out then (if was then c.overIn else c.overIn ++ [i]) else c.overIn.filter (· ≠ i),
             recov := tset (fun _ => 0) c.recov i (if out then (if was then 0 else left) else left - 1) }
  modSig d fun s => { s with conv := tset (fun _ => []) s.conv i ((smp :: convSmps d i).take convKept) }
def convTick (i : Nat) (l : List Int) (d : Dev) : Dev :=
  (List.range 20).foldl (fun d j => convTake i (convInput d i j (l.getD j 0)) d) d

/-! Band windows and the Thresher (R75, R85, R86) -/

def insertInt (z : Int) : List Int → List Int
  | [] => [z]
  | y :: t => if z ≤ y then z :: y :: t else y :: insertInt z t
/-- Twice the median; none of no samples is 0. -/
def median2 (l : List Int) : Int :=
  let s := l.foldr insertInt []
  let n := s.length
  if n = 0 then 0 else s.getD ((n - 1) / 2) 0 + s.getD (n / 2) 0
/-- Half of a departure, given twice, is more than θ = full scale × 10^(THRESH × 0.05 ÷ 20). -/
def beyond (thresh dev2 : Int) : Bool :=
  decide (2 * 131072 * tenPow (5 * thresh).toNat < dev2.natAbs * tenPow (-(5 * thresh)).toNat)

/-- The Thresher on its five samples, newest first: the sample in the middle, and whether it is replaced. A mean of two middle
values that is no whole number is rounded as the spec leaves open. -/
def thresh (on : Bool) (th : Int) (five : List PathSmp) : PathSmp × Bool :=
  let w := (List.range 5).map fun i => five.getD i smp0
  let x := w.getD 2 smp0
  let clean := w.filter fun s => ! s.ovr
  let mi := median2 (clean.map fun s => s.v.1)
  let mq := median2 (clean.map fun s => s.v.2)
  if on && (x.ovr || beyond th (2 * x.v.1 - mi) || beyond th (2 * x.v.2 - mq))
  then ({ x with v := (quot mi 2, quot mq 2) }, true) else (x, false)

/-- The output of band window w, and whether its sample is replaced. -/
def winOut (d : Dev) (w : Nat) : PathSmp × Bool :=
  thresh (rdB d (pgBWIN w) BWIN.THR_CTRL_ENABLE) (rdS d (pgBWIN w) BWIN.THR_LEVEL_THRESH) (winRt d w).five

/-- One sample of band window w: OVR and calibration's INV of its own twenty converter samples follow it through the front stage. -/
def winTick (w : Nat) (d : Dev) : Dev :=
  let p := w / 8
  if nbit (rd d (pgPORT p) PORT.BAND_STAT_ACTIVE) (w % 8) = false then d
  else
    let x := winRt d w
    let own := (convSmps d p).take 20
    let flags := ((own.any (·.ovr), own.any (·.cal)) :: x.flags).take (Config.frontDelay + 1)
    let f := flags.getD Config.frontDelay (false, false)
    let d := setWin d w { x with flags := flags, five := (⟨Config.front w ((convSmps d p).map (·.code)), f.1, f.2⟩ :: x.five).take 5 }
    if (winOut d w).2 = false then d
    else
      let d := bump d (pgBWIN w) BWIN.THR_CNT_REPLACED
      if x.hit then d else raise (setWin d w { winRt d w with hit := true }) (pgBWIN w) 0

/-! The oscillator (R82) -/

/-- The step nearest to a frequency in hertz: 491.52 MHz ÷ 2^32 = 1,875 ÷ 16,384 Hz. -/
def ncoStep (f : Nat) : Int := nearest (f * 16384 : Nat) 1875
/-- The centre of a port's band window at the segment's position: of the band range that the direction uses, or the slot's (R43). -/
def winCentre (d : Dev) (n p q : Nat) : Nat :=
  if 6 ≤ q then rd d (pgPORT p) (PORT.TDD_WIN_CENTRE (q - 6))
  else match dirRange d.part.set q (isUplink d n) with
    | some (lo, hi) => (lo + hi) * mhz / 2
    | none => 0
/-- The segment's place in a port's window, in steps of the oscillator. -/
def tuneStep (d : Dev) (n p q : Nat) : Nat :=
  ((ncoStep (defOf d n).centre - ncoStep (winCentre d n p q)) % 4294967296).toNat

/-! Stages 5 to 9 -/

def satFld : Nat → Fld
  | 0 => SEG.SAT_CNT0_DEC0
  | 1 => SEG.SAT_CNT0_DEC1
  | 2 => SEG.SAT_CNT1_DEC2
  | 3 => SEG.SAT_CNT1_DEC3
  | 4 => SEG.SAT_CNT2_DEC4
  | 5 => SEG.SAT_CNT2_DEC5
  | 6 => SEG.SAT_CNT3_DEC6
  | _ => SEG.SAT_CNT3_DEC7
/-- A saturated sample counts; a count from 0 is INT_RAW bit 4 (R88, Table 4.16). -/
def satCount (n : Nat) (f : Fld) (d : Dev) : Dev :=
  let was := rd d (pgSEG n) f
  let d := bump d (pgSEG n) f
  if was = 0 then raise d (pgSEG n) 4 else d

/-- The coefficients of decimating stage j, and its shift (Table 4.11). -/
def decTaps (j : Nat) : List Int := symTaps (Config.halfBand j) (Config.halfCentre j)
def decShift (d : Dev) (n j : Nat) : Nat :=
  if 7 ≤ j then rd d (pgSEG n) SEG.SHIFT_DEC7 else rd d (pgSEG n) SEG.SHIFT_DEC6_0 / 8 ^ j % 8

/-- A sample through `m` stages from stage j on: the delay lines after it, the stages that saturated, and the last one's output
where its instant falls on sample t. -/
def decRun (shift : Nat → Nat) (t : Nat) : Nat → Nat → List (List Cx) → Cx → List (List Cx) × List Nat × Option Cx
  | 0, _, l, x => (l, [], some x)
  | m + 1, j, l, x =>
    let line := (x :: l.headD []).take (decTaps j).length
    if t % 2 ^ (j + 1) ≠ 0 then (line :: l.drop 1, [], none)
    else
      let y := shiftWord (shift j) (fir (decTaps j) line)
      let r := decRun shift t m (j + 1) (l.drop 1) y.1
      (line :: r.1, if y.2 then j :: r.2.1 else r.2.1, r.2.2)

/-- The DC blocker on a sample: its output and its new estimate (R89 to R91). -/
def dcStage (d : Dev) (n : Nat) (dc x : Cx) : Cx × Cx :=
  if dcbActs d n = false then (x, dc)
  else (csub x (cquot dc (2 ^ 20)),
    if 2 ≤ dcbStat d n then dc else cadd dc (cquot (csub (cscale (2 ^ 20) x) dc) (2 ^ (8 + rd d (pgSEG n) SEG.DCB_CTRL_TC))))

/-- The channel filter's coefficients: the symmetric FIR of TAPS taps (R92). -/
def chfTaps (d : Dev) (n : Nat) : List Int :=
  let c (i : Nat) : Int := s18 (rd d (pgSEG n) (SEG.CHF_COEF_C i))
  let m := (rd d (pgSEG n) SEG.CHF_CFG_TAPS - 1) / 2
  symTaps ((List.range m).map c) (c m)

/-- L = floor(D × rate), and the lag of tap 0: max(1, L − 8) + BULK (R199). -/
def loopDelay (d : Dev) (n : Nat) : Nat :=
  profDelay (rd d (pgSEG n) SEG.PATH_CFG_PROFILE) * 2 ^ rd d (pgSEG n) SEG.PATH_CFG_RATE * 1920 / 10000000
def tapLag (d : Dev) (n : Nat) : Nat := max 1 (loopDelay d n - 8) + rd d (pgSEG n) SEG.CANC_NOW_BULK_NOW
/-- The canceller's estimate y(t) = Σ w_k × x(t − (L0 + BULK + k)); the newest entry of the history is x(t − 1) (R199). -/
def feedback (d : Dev) (n : Nat) (hist : List Cx) : Cx :=
  if rd d (pgSEG n) SEG.CANC_CFG_MODE = 0 then (0, 0)
  else
    cquot (csum ((List.range 128).map fun k => cmul (tapW d n k) (hist.getD (tapLag d n + k - 1) (0, 0))))
      (2 ^ (15 + rd d (pgSEG n) SEG.CANC_NOW_EXP_NOW))

/-- Stage 9 is ramped to zero: a mute, a gate, a deactivation (R95). -/
def ampDown (d : Dev) (n : Nat) : Bool := isMuted d n || isGated d n || (segRt d n).deact
/-- The gain's and the mute's ramps at a sample: a mute takes the present ramped gain down, and its end starts from zero at the gain
in force (R94, R95, R110). One that ends early goes up from where it stands (DESIGN CHOICE, log entry 66). -/
def rampTick (down : Bool) (x : SegPath) : SegPath :=
  if down then
    if x.amp = 0 then { x with gain := Ramp.at 64 x.gain.goal } else { x with amp := x.amp - 1 }
  else { x with gain := x.gain.step 64, amp := min 64 (x.amp + 1) }
/-- The gain stage's exact output, before it saturates. -/
def gainStage (x : SegPath) (v : Cx) : Cx :=
  cquot (cscale x.amp (byAmp v (x.gain.amp 64) (ampStep (5 * Config.gainRef)))) 64

/-! Stage 10 (R184 to R191, R221) -/

/-- Segment samples since the probe's code began. -/
def codePhase (d : Dev) (n : Nat) : Nat := (isoRt d n).phase + (pathRt d n).since
/-- The mask's points (R191): offsets in hertz, attenuations in level units. -/
def maskPts (d : Dev) (n : Nat) : List (Int × Nat) :=
  (List.range (rd d (pgSEG n) SEG.PRB_CFG_NPTS)).map fun k =>
    (s18 (rd d (pgSEG n) (SEG.PMASK_OFFS k)) * 1000, rd d (pgSEG n) (SEG.PMASK_ATTEN k))

/-- The chip impulse that falls on the present sample of a branch, two samples to a chip: the probe's, a frame's in its place, or
none (R187, R221). -/
def chipNow (d : Dev) (n b : Nat) : Int :=
  let s := codePhase d n
  let probe : Int := if s % 2 = 0 then probeChip (rd d (pgSEG n) SEG.PRB_STAT_LEN_NOW) (nodeId d) b (s / 2) else 0
  if isGated d n then 0
  else match carries d n b with
    | .probe => if (tget (fun _ => outPath0) (pathRt d n).outs b).dens.goal = -32768 then 0 else probe
    | .frame t =>
      let k := talkOf d t
      if s < k.first then probe
      else if (s - k.first) % 2 = 0 then frameChip (rd d pgLTX (LTX.TLK_CFG_SF t)) k.syms ((s - k.first) / 2) else 0
    | .none => 0
/-- The density that a branch carries: the probe's on its ramp, a frame's as R221 gives it. -/
def densNow (d : Dev) (n b : Nat) (o : OutPath) : Ramp :=
  match carries d n b with
  | .frame _ => Ramp.at 64 (frameDens d n b)
  | _ => o.dens

def rrcTaps : List Int := symTaps ((List.range 16).map Config.rrcHalf) Config.rrcCentre
def maskTaps (pts : List (Int × Nat)) : List Int := symTaps ((List.range 31).map (Config.maskHalf pts)) (Config.maskCentre pts)
def dot (c x : List Int) : Int := (List.zipWith (· * ·) c x).foldl (· + ·) 0

/-- The 28 bits of a sample in a container; how 18 bits become 14 is not stated (R301). -/
def contOf (v : Cx) (inv : Bool) : Nat := contBits (clip14 (quot v.1 16)) (clip14 (quot v.2 16)) inv

/-- One sample of an output branch: its own ramp, the probe shaped, masked and at its level, added to stage 9's output. -/
def outStage (d : Dev) (n b : Nat) (v : PathSmp) (o : OutPath) : OutPath :=
  let chips := (chipNow d n b :: o.chips).take 33
  let shaped := (dot rrcTaps chips :: o.shaped).take 63
  let pts := maskPts d n
  let p := if pts = [] then shaped.headD 0 * 2 ^ 16 else dot (maskTaps pts) shaped
  let lev := densNow d n b o
  let prb := quot (p * lev.amp 64) (2 ^ 32 * ampStep (5 * Config.probeRef b))
  let amp := if hasOut d n b then min 64 (o.amp + 1) else o.amp - 1
  let y := cadd (cquot (cscale amp v.v) 64) (prb, 0)
  { o with amp := amp, chips := chips, shaped := shaped, dens := o.dens.step 64,
           line := (y :: o.line).take (nInv (defOf d n).profile (defOf d n).rate), cont := if 4 ≤ b then contOf y v.inv else 0 }
/-- The branches that stage 10 serves: those in force, and those that ramp down. -/
def outBranches (d : Dev) (n : Nat) : List Nat :=
  (List.range 12).filter fun b => hasOut d n b || (pathRt d n).outs.any fun e => decide (e.1 = b)
def outsTick (d : Dev) (n : Nat) (v : PathSmp) : Dev :=
  (outBranches d n).foldl (fun d b => modPath d n fun x =>
    { x with outs := tset (fun _ => outPath0) x.outs b (outStage d n b v (tget (fun _ => outPath0) x.outs b)) }) d

/-- A sample at the segment rate through stages 6 to 10. In an invalid run the outputs of stage 9 are zero and carry INV (R104). -/
def segSample (d : Dev) (n : Nat) (s : PathSmp) : Dev :=
  let x := pathRt d n
  let dc := dcStage d n x.dc s.v
  let taps := chfTaps d n
  let chf := (dc.1 :: x.chf).take taps.length
  let f := shiftWord (rd d (pgSEG n) SEG.SHIFT_CHF) (fir taps chf)
  let x := rampTick (ampDown d n) x
  let g := gainStage x (csub f.1 (feedback d n x.hist))
  let run := (segRt d n).inv
  let o : PathSmp := ⟨if run then (0, 0) else csat18 g, s.ovr, s.inv || run⟩
  let hist := (o.v :: x.hist).take (tapLag d n + rd d (pgSEG n) SEG.CANC_BULK_LIMIT + 128)
  let d := setPath d n { x with dc := dc.2, chf := chf, hist := hist, ovr := false, inv := false }
  let d := wrS (wrS d (pgSEG n) SEG.DCB_EST_EST_I (quot dc.2.1 (2 ^ 22))) (pgSEG n) SEG.DCB_EST_EST_Q (quot dc.2.2 (2 ^ 22))
  let d := if f.2 then satCount n SEG.SAT_CNT4_CHF d else d
  let d := if csat18 g ≠ g then satCount n SEG.SAT_CNT4_GAIN d else d
  modPath (outsTick d n o) n fun x => { x with since := x.since + 1 }

/-- The sample of a head input branch that falls here, as the injectors leave it: zero with INV while its link is not RUNNING or
where none has arrived (R301, R316, R477). -/
def headSample (d : Dev) (n : Nat) (x : TickIn) : PathSmp :=
  let b := inBranch d n
  let e := extRt d (linkOf b)
  match x.head.find? fun h => decide (h.1 = n) with
  | none => ⟨(0, 0), false, true⟩
  | some (_, row, before, own, after) =>
    let c := ((e.conts.find? fun c => c.1 && decide (c.2.2 = (n, b))).map fun c => c.2.1).getD 128
    let act (r : Nat) := (e.rowActs.find? fun a => a.1 && decide (a.2.1 = c ∧ a.2.2.1 = r)).map fun a => a.2.2.2
    let w := match act row with
      | some .drop => 0
      | some (.mask m) => own ^^^ m
      | some .swap => after
      | none => if decide (0 < row) && act (row - 1) == some .swap then before else own
    let s := contSample w
    if inputLost d n then ⟨(0, 0), false, true⟩ else ⟨(16 * s.1, 16 * s.2.1), false, s.2.2⟩

/-- A band-window sample of segment n: stages 3 to 5 of an engine input, or a head's samples (R99). -/
def segTick (x : TickIn) (n : Nat) (d : Dev) : Dev :=
  let s := pathRt d n
  let k := rd d (pgSEG n) SEG.PATH_CFG_RATE
  let p := inBranch d n
  let d := modPath d n fun s => { s with t := s.t + 1 }
  if 4 ≤ p then (if s.t % 2 ^ (8 - k) = 0 then segSample d n (headSample d n x) else d)
  else
    let q := ((defOf d n).pos d.part.set).getD 0
    let w := (winOut d (8 * p + q)).1
    let nco := (s.nco + tuneStep d n p q) % 4294967296
    let r := decRun (decShift d n) s.t (8 - k) 0 s.dec (Config.rotate nco w.v)
    let d := modPath d n fun s => { s with nco := nco, dec := r.1, ovr := s.ovr || w.ovr, inv := s.inv || w.inv }
    let d := r.2.1.foldl (fun d j => satCount n (satFld j) d) d
    match r.2.2 with
    | some v => segSample d n ⟨v, s.ovr || w.ovr, s.inv || w.inv⟩
    | none => d

/-! Stages 11 to 13 -/

/-- An output branch's part of its port's window: interpolated, through its buffer, translated back by the segment's own steps, and
trimmed (R82, R98, R101). -/
def branchOut (d : Dev) (n p q : Nat) : Cx :=
  let x := pathRt d n
  let o := tget (fun _ => outPath0) x.outs p
  let k := rd d (pgSEG n) SEG.PATH_CFG_RATE
  let v := Config.interpolate k (x.t % 2 ^ (8 - k)) (matchBuffer d (defOf d n) p) o.line
  cquot (cscale (Config.trim p q) (Config.rotate ((4294967296 - o.nco) % 4294967296) v)) (2 ^ 16)
/-- The oscillators of the output branches run on. -/
def outNco (n : Nat) (d : Dev) : Dev :=
  let q := ((defOf d n).pos d.part.set).getD 0
  ((outBranches d n).filter (· < 4)).foldl (fun d p => modPath d n fun x =>
    let o := tget (fun _ => outPath0) x.outs p
    { x with outs := tset (fun _ => outPath0) x.outs p { o with nco := (o.nco + tuneStep d n p q) % 4294967296 } }) d

/-- The composite of window q of port p. -/
def composite (d : Dev) (p q : Nat) : Cx :=
  csum ((d.act.filter fun n => (outBranches d n).contains p && decide ((defOf d n).pos d.part.set = some q)).map
    fun n => branchOut d n p q)

/-- The predistortion of window q over the last windows, newest first (R284): full scale is 2^17. -/
def predistort (d : Dev) (p q : Nat) (comp : List (List Cx)) : Cx :=
  let active := (List.range 8).filter (nbit (rd d (pgPORT p) PORT.BAND_STAT_ACTIVE))
  let x (m r : Nat) : Cx := (comp.getD m []).getD r (0, 0)
  let e (m : Nat) : Int := (active.map fun r => (x m r).1 ^ 2 + (x m r).2 ^ 2).foldl (· + ·) 0
  let a (j m : Nat) : Cx := (rdS d (pgTX p) (TX.DPD_W_I (16 * q + 4 * j + m)), rdS d (pgTX p) (TX.DPD_W_Q (16 * q + 4 * j + m)))
  cquot (csum ((List.range (rd d (pgTX p) TX.DPD_CFG_ORDER + 1)).flatMap fun j =>
      (List.range (rd d (pgTX p) TX.DPD_CFG_MEM + 1)).map fun m =>
        cscale (e m ^ j * 2 ^ (34 * (3 - j))) (cmul (a j m) (x m q)))) (2 ^ 116)

/-- A band-window sample of port p through stages 12 and 13: back-off, predistortion, summation, up-conversion, and the DAC, whose
output TEST can mute (R275, R277, R64, Table 3.7). -/
def portTick (p : Nat) (d : Dev) : Dev :=
  let x := tget (fun _ => portPath0) d.sig.ports p
  let back := x.back.step 256
  let comp := ((List.range 8).map (fun q => byAmp (composite d p q) (back.amp 256) (ampStep 0)) :: x.comp).take 4
  let active := rd d (pgPORT p) PORT.BAND_STAT_ACTIVE
  let post := ((List.range 8).map (fun q => if nbit active q then predistort d p q comp else (0, 0)) :: x.post).take 123
  let d := modSig d fun s => { s with ports := tset (fun _ => portPath0) s.ports p ⟨back, comp, post⟩ }
  let mute := decide (inputSel d (4 + p) = 2)
  (List.range 20).foldl (fun d j => convTake (4 + p) (if mute then 0 else Config.upConvert p post j) d) d

/-- One band-window sample of the whole path. -/
def sigTick (d : Dev) (x : TickIn) : Dev :=
  let d := forEach ports4 (fun p d => convTick p (x.adc.getD p []) d) d
  let d := forEach (List.range 32) winTick d
  let d := forEach d.act (segTick x) d
  let d := forEach d.act outNco d
  let d := forEach ports4 portTick d
  let d := forEach ports4 (fun p d => convTick (8 + p) (x.obs.getD p []) d) d
  modSig d fun s => { s with t := s.t + 1 }

end Sys2Proof.Machine
end

