-- ==== Sys2Proof/Machine/Ambient.lean ====
section
/-!
DEFINITION. What happens beside the commands: a read of a register with what it clears and advances (R11, R12), and a band-window
sample of the signal path.
-/

namespace Sys2Proof.Machine

/-! Reads -/

/-- The RC bits of a register that its word in the register table holds are cleared. -/
def clearRc (d : Dev) (page off : Nat) : Dev :=
  match rowAt page off with
  | some r => if r.rc = 0 then d else setReg d page off (reg d page off &&& ~~~ BitVec.ofNat 32 r.rc)
  | none => d

/-- The RC counters that typed state holds. -/
def clearQueue (d : Dev) (page off : Nat) : Dev :=
  let b := (off - 0x40) / 0x100
  let o := (off - 0x40) % 0x100
  let k := if page = pgGQ then qGlob b else 4 * (page - 0x1000) + b
  let q := queueOf d.rep k
  if o = 0x1C then { d with rep := setQueue d.rep k { q with dropped := 0, flushed := 0 } }
  else if o = 0x20 then { d with rep := setQueue d.rep k { q with stray := 0, partials := 0 } }
  else d
def clearSrc (d : Dev) : Dev :=
  let s := rd d pgFSRC FSRC.SRC_SEL_SOURCE
  let c := tget (fun _ => srcCnt0) d.rep.flt.cnt s
  { d with rep := { d.rep with flt := { d.rep.flt with
      cnt := tset (fun _ => srcCnt0) d.rep.flt.cnt s { c with events := 0, forced := 0 } } } }

/-- A read clears the RC fields of its register; an event after it counts from 0 (R11, R12). -/
def readClear (d : Dev) (page off : Nat) : Dev :=
  match (kindOf page).1 with
  | .hostGlb => if off = 0x50 then { d with rep := { d.rep with storeDropped := 0 } } else clearRc d page off
  | .glbIrq => if off = 0x4C then { d with rep := { d.rep with errCnt := 0 } } else clearRc d page off
  | .gq => clearQueue d page off
  | .queue => clearQueue d page off
  | .fltSrc => if off = 0x48 then clearSrc d else clearRc d page off
  | .talGlb => if off = 0x50 then { d with rep := modTally d.rep fun t => { t with dropped := 0, torn := 0 } } else clearRc d page off
  | .prov =>
    if 0x80 ≤ off ∧ off < 0x180 ∧ (off - 0x80) % 0x20 = 0x14 then modInj d ((off - 0x80) / 0x20) fun x => { x with hits := 0 }
    else clearRc d page off
  | _ => clearRc d page off

/-- What else a read does: FRAME_NOW latches TICK, DEV_LOOP_LO its upper half, and a data register advances (R124, R179, R196,
R324). TICK is the clock's as of its last event. -/
def readMoves (d : Dev) (page off : Nat) : Dev :=
  match kindOf page with
  | (.air, c) => if off = 0x4C then frameNow d c (airRt d c).tick else if c = 0 ∧ off = 0xDC then devLoopRead d else d
  | (.seg, n) => if off = 0x848 then irRead d n else d
  | (.loopGlb, _) => if off = 0x80 then bufRead d else d
  | (.ext, k) => if off = 0x70 then capsRead d k else d
  | (.monGlb, _) => if off = 0x50 then ringRead d else d
  | _ => d

/-- A read of a register by the host: the value as it stands, then what the read clears and moves. -/
def hostRead (d : Dev) (page off : Nat) : Dev :=
  let d := answer d page off
  if occupied page = true ∧ 0x40 ≤ off then readMoves (readClear d page off) page off else d

/-- What happens beside the commands. -/
def ambientAct (d : Dev) : Ambient → Dev
  | .read page word => hostRead d page (4 * word)
  | .tick x => sigTick d x

/-- The next of the events beside the commands; the block idles where there is none. -/
def ambientStep (s : State) : Answer :=
  match s.ambient with
  | [] => .next s
  | a :: t => onDev { s with ambient := t } fun d => ambientAct d a

end Sys2Proof.Machine
end

