-- ==== Sys2Proof/Machine/RunSystem.lean ====
section
/-!
DEFINITION. Meanings: the supply, modes, register writes and the common header.
-/

namespace Sys2Proof.Machine

/-- POWER_ON (R337): the strap pins are read three times at 1 ms, and each takes the level that most reads found (R470). -/
def execPowerOn (boot : BitVec 2 × BitVec 2 × BitVec 2) (agent : Bool × Bool × Bool) (s : State) : Answer :=
  let (a, b, c) := boot
  let (x, y, z) := agent
  powerUp s ((a &&& b) ||| (a &&& c) ||| (b &&& c)).toNat (x && y || x && z || y && z)
/-- POWER_FAIL_DECLARED (R342). -/
def execPowerFailDeclared (steps : Fin 5) (len : BitVec 16) (wrote : Nat) (torn : Bool) (s : State) : Answer :=
  onDev s fun d => powerFail d steps len.toNat wrote torn
/-- MODE_CMD_ENTER_TEST (R399). -/
def execModeCmdEnterTest (s : State) : Answer := onDev s fun d => unlessLocked d pgMODE 0x44 enterTest
/-- MODE_CMD_LEAVE_TEST (R399). -/
def execModeCmdLeaveTest (s : State) : Answer := onDev s fun d => unlessLocked d pgMODE 0x44 exitTest
/-- MODE_CMD_ENTER_SAFE (R399). -/
def execModeCmdEnterSafe (s : State) : Answer := onDev s fun d => unlessLocked d pgMODE 0x44 enterSafe
/-- HOST_RESTART (R400). -/
def execHostRestart (key : BitVec 8) (s : State) : Answer :=
  onDev s fun d => unlessLocked d pgMODE 0x44 fun d => hostRestart d key.toNat
/-- REG_WRITE (R10). -/
def execRegWrite (page : Fin 16384) (word : Fin 1024) (value : Word) (s : State) : Answer :=
  onMem s fun d m => busWrite d m page (4 * word) value.toNat
/-- PAGE_COMMIT (R394). -/
def execPageCommit (page : Fin 16384) (ticks : Nat) (s : State) : Answer := onDev s fun d => pageCommit d page ticks
/-- PAGE_CANCEL (R394). -/
def execPageCancel (page : Fin 16384) (ticks : Nat) (s : State) : Answer := onDev s fun d => pageCancel d page ticks
/-- PAGE_SOFT_RESET (R390). -/
def execPageSoftReset (page : Fin 16384) (s : State) : Answer := onDev s fun d => pageSoftReset d page
/-- PAGE_LOCK (R391). -/
def execPageLock (page : Fin 16384) (s : State) : Answer := onDev s fun d => pageLock d page
/-- PAGE_ENABLE_WRITE (R389). -/
def execPageEnableWrite (page : Fin 16384) (en : Bool) (s : State) : Answer := onDev s fun d => pageEnable d page en
/-- INT_MASK_WRITE (R393). -/
def execIntMaskWrite (page : Fin 16384) (mask : Word) (s : State) : Answer := onDev s fun d => maskWrite d page mask
/-- FAULT_FORCE_WRITE (R411). -/
def execFaultForceWrite (page : Fin 16384) (bits : Word) (cycle : Fin 37500) (real : List (Fin 256))
    (s : State) : Answer :=
  onDev s fun d =>
    faultForce d page bits.toNat cycle (real.map Fin.val)

end Sys2Proof.Machine
end

