-- ==== Sys2Proof/Machine/RunLoop.lean ====
section
/-!
DEFINITION. Meanings: the gain-control engine, the segment path, dither and trace.
-/

namespace Sys2Proof.Machine

/-- LOOP_LATCH (R22). -/
def execLoopLatch (x : LatchIn) (s : State) : Answer :=
  onMem s fun d m => (loopLatch (drainDeferred d m).1 x, (drainDeferred d m).2)
/-- LOOP_EVALUATE (R150). -/
def execLoopEvaluate (s : State) : Answer := onDev s evaluateAll
/-- LOOP_GAIN_WRITE (R146). -/
def execLoopGainWrite (s : State) : Answer := onDev s loopWrite
/-- DEACTIVATION_RAMP_DONE (R103). -/
def execDeactivationRampDone (n : Fin 1024) (s : State) : Answer := onDev s fun d => deactDone d n
/-- SEG_SYNC_RESET (R103). -/
def execSegSyncReset (n : Fin 1024) (s : State) : Answer :=
  onDev s fun d => unlessLocked d (pgSEG n) 0x60 fun d => syncReset d n
/-- COEF_SEAL (R106). -/
def execCoefSeal (n : Fin 1024) (loop : Bool) (s : State) : Answer :=
  onDev s fun d =>
    unlessLocked d (if loop then pgLOOP n else pgSEG n) (if loop then 0xA0 else 0x58) fun d => coefSeal d n loop
/-- SHADOW_COPY_DONE (R105). -/
def execShadowCopyDone (n : Fin 1024) (loop : Bool) (s : State) : Answer :=
  onDev s fun d => if loop then loopCopyDone d n else segCopyDone d n
/-- INVALID_RUN_END (R104). -/
def execInvalidRunEnd (n : Fin 1024) (s : State) : Answer := onDev s fun d => endRun d n
/-- TONE_WINDOW_END (R97). -/
def execToneWindowEnd (n : Fin 1024) (ratio : Int) (discard : Bool) (s : State) : Answer :=
  onDev s fun d => toneEnd d n ratio discard
/-- DITH_START (R174). -/
def execDithStart (amp : BitVec 4) (ctx : Fin 1024) (half : BitVec 8) (s : State) : Answer :=
  onDev s fun d => unlessLocked d pgLGLB 0x70 fun d => dithStart d amp.toNat ctx half.toNat
/-- DITH_STOP (R175). -/
def execDithStop (s : State) : Answer := onDev s fun d => unlessLocked d pgLGLB 0x70 dithAbort
/-- TRACE_ARM (R177). -/
def execTraceArm (pre : BitVec 12) (slot : Fin 4) (src : BitVec 3) (s : State) : Answer :=
  onDev s fun d => unlessLocked d pgLGLB 0x68 fun d => traceArm d pre.toNat slot src.toNat
/-- TRACE_FORCE (R177). -/
def execTraceForce (s : State) : Answer := onDev s fun d => unlessLocked d pgLGLB 0x68 traceTrigger
/-- BUF_DATA_READ (R179). -/
def execBufDataRead (s : State) : Answer := onDev s fun d => bufRead (answer d pgLGLB 0x80)

end Sys2Proof.Machine
end

