-- ==== Sys2Proof/Machine/RunAir.lean ====
section
/-!
DEFINITION. Meanings: air clocks, the scheduler, the time grid and TDD switching.
-/

namespace Sys2Proof.Machine

/-- AIR_FRAME_BOUNDARY (R134). -/
def execAirFrameBoundary (c : Fin 16) (x : ClkMeas) (a : ActInput) (s : State) : Answer :=
  onMem s fun d m => airBoundary d m c x a
/-- ACT_HOST_EVENT (R132). -/
def execActHostEvent (c : Fin 16) (i : Fin 256) (x : ActInput) (s : State) : Answer :=
  onMem s fun d m => actCmd 0 d m c i x
/-- ACT_MON_TRIGGER (R324). -/
def execActMonTrigger (c : Fin 16) (i : Fin 256) (x : ActInput) (s : State) : Answer :=
  onMem s fun d m => actCmd 1 d m c i x
/-- ACT_CAPTURE_START (R381). -/
def execActCaptureStart (c : Fin 16) (i : Fin 256) (x : ActInput) (s : State) : Answer :=
  onMem s fun d m => actCmd 2 d m c i x
/-- ACT_CAPTURE_STOP (R382). -/
def execActCaptureStop (c : Fin 16) (i : Fin 256) (x : ActInput) (s : State) : Answer :=
  onMem s fun d m => actCmd 3 d m c i x
/-- ACT_MEAS_OPEN (R132). -/
def execActMeasOpen (c : Fin 16) (i : Fin 256) (x : ActInput) (s : State) : Answer :=
  onMem s fun d m => actCmd 4 d m c i x
/-- ACT_MEAS_CLOSE (R132). -/
def execActMeasClose (c : Fin 16) (i : Fin 256) (x : ActInput) (s : State) : Answer :=
  onMem s fun d m => actCmd 5 d m c i x
/-- ACT_SOUND_BURST (R192). -/
def execActSoundBurst (c : Fin 16) (i : Fin 256) (x : ActInput) (s : State) : Answer :=
  onMem s fun d m => actCmd 6 d m c i x
/-- AIR_LOCK (R117). -/
def execAirLock (c : Fin 16) (cell : Fin 1024) (snr : Int) (x : StepInput) (s : State) : Answer :=
  onMem s fun d m => airLock d m c cell snr x
/-- FRAME_NUMBER_READ (R121). -/
def execFrameNumberRead (c : Fin 16) (num : Nat) (k : Fin 12) (s : State) : Answer :=
  onDev s fun d => frameRead d c num k
/-- AIR_HOLDOVER_ENTER (R119). -/
def execAirHoldoverEnter (c : Fin 16) (s : State) : Answer := onDev s fun d => airHoldover d c
/-- AIR_LOST_ENTER (R130). -/
def execAirLostEnter (c : Fin 16) (s : State) : Answer := onDev s fun d => airLost d c
/-- AIR_RELOCK (R128). -/
def execAirRelock (c : Fin 16) (cell : Fin 1024) (snr : Int) (x : StepInput) (s : State) : Answer :=
  onMem s fun d m => airRelock d m c cell snr x
/-- AIR_TIMING_JUMP (R128). -/
def execAirTimingJump (c : Fin 16) (x : StepInput) (s : State) : Answer := onMem s fun d m => airJump d m c x
/-- TDD_MUTE_LIFT (R131). -/
def execTddMuteLift (c : Fin 16) (n : Fin 1024) (s : State) : Answer := onDev s fun d => muteLift d c n
/-- FRAME_NOW_READ (R124). -/
def execFrameNowRead (c : Fin 16) (tick : Fin 307200) (s : State) : Answer :=
  onDev s fun d => frameNow (answer d (pgAIR c) 0x4C) c tick
/-- DEV_LOOP_READ (R144). -/
def execDevLoopRead (s : State) : Answer := onDev s fun d => devLoopRead (answer d (pgAIR 0) 0xDC)
/-- REF_SOURCE_CHANGE (R31). -/
def execRefSourceChange (offs : Int) (s : State) : Answer := onDev s fun d => refChange d offs
/-- J13_PRESENCE_CHANGE (R126). -/
def execJ13PresenceChange (valid : Bool) (s : State) : Answer := onDev s fun d => j13Change d valid
/-- TDD_SWITCH_ACTION (R142). -/
def execTddSwitchAction (b : Fin 12) (slot : Fin 2) (tx : Bool) (period : Nat) (tick : Fin 960) (s : State) : Answer :=
  onDev s fun d => switchAction d b slot tx period tick
/-- TR_SWITCH_DONE (R46). -/
def execTrSwitchDone (p : Fin 4) (slot : Fin 2) (s : State) : Answer := onDev s fun d => switchDone d p slot
/-- TDD_GATE_CHANGE (R142). -/
def execTddGateChange (n : Fin 1024) (opens : Bool) (period : Nat) (s : State) : Answer :=
  onDev s fun d => gateChange d n opens period

end Sys2Proof.Machine
end

