-- ==== Sys2Proof/Machine/RunProbe.lean ====
section
/-!
DEFINITION. Meanings: probes, isolation estimates and the canceller.
-/

namespace Sys2Proof.Machine

/-- ISO_ESTIMATE_DONE (R195). -/
def execIsoEstimateDone (n : Fin 1024) (x : Estimate) (s : State) : Answer := onDev s fun d => isoDone d n x
/-- CANC_UPDATE_APPLY (R202). -/
def execCancUpdateApply (n : Fin 1024) (s : State) : Answer := onDev s fun d => cancApply d n
/-- GUARD_WINDOW_END (R206). -/
def execGuardWindowEnd (n : Fin 1024) (eHs eRs eNs : Nat) (iso : Int) (s : State) : Answer :=
  onDev s fun d => guardEnd d n eHs eRs eNs iso
/-- GUARD_FAIL_APPLY (R206). -/
def execGuardFailApply (n : Fin 1024) (s : State) : Answer := onDev s fun d => guardApply d n
/-- ISO_VALID_LAPSE (R197). -/
def execIsoValidLapse (n : Fin 1024) (s : State) : Answer := onDev s fun d => isoLapse d n
/-- SOUND_BURST_END (R192). -/
def execSoundBurstEnd (b : Fin 12) (s : State) : Answer := onDev s fun d => soundEnd d b
/-- NODE_ID_WRITE (R210). -/
def execNodeIdWrite (id : BitVec 14) (s : State) : Answer :=
  onDev s fun d => unlessChanged d pgPRB PRB.NODE_NODE_ID id.toNat fun d => nodeWrite d id.toNat
/-- IR_DATA_READ (R196). -/
def execIrDataRead (n : Fin 1024) (s : State) : Answer := onDev s fun d => irRead (answer d (pgSEG n) 0x848) n

end Sys2Proof.Machine
end

