-- ==== Sys2Proof/Machine/RunLink.lean ====
section
/-!
DEFINITION. Meanings: the Cricket link.
-/

namespace Sys2Proof.Machine

/-- LNK_ENABLE (R214). -/
def execLnkEnable (en : Bool) (s : State) : Answer :=
  onDev s fun d => unlessChanged d pgLNK LNK.LNK_CTRL_EN (b2n en) fun d => lnkEnable d en
/-- HELLO_TIMER (R234). -/
def execHelloTimer (s : State) : Answer := onDev s helloTimer
/-- REPORT_TIMER (R234). -/
def execReportTimer (s : State) : Answer := onDev s reportTimer
/-- FRAME_TX_START (R223). -/
def execFrameTxStart (t : Fin 8) (s : State) : Answer := onDev s fun d => frameTxStart d t
/-- FRAME_TX_END (R221). -/
def execFrameTxEnd (t : Fin 8) (s : State) : Answer := onDev s fun d => frameTxEnd d t
/-- DEAF_END (R224). -/
def execDeafEnd (t : Fin 8) (s : State) : Answer := onDev s fun d => deafEnd d t
/-- PREAMBLE_DETECT (R226). -/
def execPreambleDetect (l : Fin 16) (nf : Int) (dets : List (Fin 4 × Int × Nat)) (s : State) : Answer :=
  onDev s fun d => preamble d l nf (dets.map (detOf d.devLoop))
/-- FRAME_SYNC_FOUND (R228). -/
def execFrameSyncFound (l : Fin 16) (s : State) : Answer := onDev s fun d => syncFound d l
/-- FRAME_SYNC_TIMEOUT (R228). -/
def execFrameSyncTimeout (l : Fin 16) (live : Bool) (s : State) : Answer := onDev s fun d => syncTimeout d l live
/-- FRAME_HEADER_DONE (R228): the 48 header bits decoded. -/
def execFrameHeaderDone (l : Fin 16) (ver : BitVec 2) (typ : BitVec 4) (len : BitVec 6) (src dst : BitVec 14) (crc : BitVec 8)
    (live : Bool) (s : State) : Answer :=
  onDev s fun d => headerDone d l (headerOf (ver ++ typ ++ len ++ src ++ dst ++ crc)) live
/-- FRAME_PAYLOAD_DONE (R228): the payload bytes and the CRC-16 decoded. -/
def execFramePayloadDone (l : Fin 16) (bytes : List Byte) (crc : BitVec 16) (s : State) : Answer :=
  onDev s fun d => payloadDone d l (bytes.map BitVec.toNat) crc.toNat
/-- RX_HELLO (R235). -/
def execRxHello (s : State) : Answer := onDev s rxHello
/-- RX_COUPLING_REPORT (R237). -/
def execRxCouplingReport (s : State) : Answer := onDev s rxReport
/-- RX_GAIN_YIELD (R234). -/
def execRxGainYield (s : State) : Answer := onDev s rxYield
/-- RX_ACK (R225). -/
def execRxAck (s : State) : Answer := onDev s rxAck
/-- YIELD_ACK_TIMEOUT (R225). -/
def execYieldAckTimeout (dst : BitVec 14) (s : State) : Answer := onDev s fun d => ackTimeout d dst.toNat
/-- CIN_ESTIMATE_DONE (R218). -/
def execCinEstimateDone (l : Fin 16) (id : BitVec 14) (rows : List Int) (bound : Int) (s : State) : Answer :=
  onDev s fun d => cinDone d l id.toNat rows bound
/-- YIELD_EVAL_TIMER (R237). -/
def execYieldEvalTimer (s : State) : Answer := onDev s evalAll
/-- NB_STALE (R235). -/
def execNbStale (id : BitVec 14) (s : State) : Answer := onDev s fun d => nbStale d id.toNat
/-- NB_PIN (R235). -/
def execNbPin (id : BitVec 14) (s : State) : Answer :=
  onDev s fun d => unlessLocked d pgLNK 0x98 fun d => nbPin d id.toNat
/-- NB_UNPIN (R236). -/
def execNbUnpin (id : BitVec 14) (s : State) : Answer :=
  onDev s fun d => unlessLocked d pgLNK 0x98 fun d => nbUnpin d id.toNat
/-- NB_REMOVE (R236). -/
def execNbRemove (id : BitVec 14) (s : State) : Answer :=
  onDev s fun d => unlessLocked d pgLNK 0x98 fun d => nbRemove d id.toNat

end Sys2Proof.Machine
end

