-- ==== Sys2Proof/Machine/RunProtect.lean ====
section
/-!
DEFINITION. Meanings: network protection, the uplink noise budget and quiet periods.
-/

namespace Sys2Proof.Machine

/-- DONOR_OVERLOAD_QUIET (R249). -/
def execDonorOverloadQuiet (n : Fin 1024) (s : State) : Answer := onDev s fun d => ovlQuiet d n
/-- PROT_CLIMB (R252). -/
def execProtClimb (code : Fin 16) (idx : Fin 1024) (s : State) : Answer := onDev s fun d => npClimb d code idx
/-- PROT_BACKOFF_EXPIRE (R256). -/
def execProtBackoffExpire (code : Fin 16) (idx : Fin 1024) (s : State) : Answer :=
  onDev s fun d => backoffEnd d code idx
/-- PROT_WATCH_EXPIRE (R257). -/
def execProtWatchExpire (code : Fin 16) (idx : Fin 1024) (s : State) : Answer := onDev s fun d => watchEnd d code idx
/-- NP_OPERATOR_OFF (R260). -/
def execNpOperatorOff (kind level : BitVec 2) (index : Fin 1024) (s : State) : Answer :=
  onDev s fun d => unlessLocked d pgNP 0x54 fun d => npWrite d 1 kind.toNat level.toNat 0 index
/-- NP_OPERATOR_ON (R260). -/
def execNpOperatorOn (kind : BitVec 2) (index : Fin 1024) (s : State) : Answer :=
  onDev s fun d => unlessLocked d pgNP 0x54 fun d => npWrite d 2 kind.toNat 0 0 index
/-- NP_RELEASE_LATCHED (R260). -/
def execNpReleaseLatched (kind : BitVec 2) (cond : Fin 16) (index : Fin 1024) (s : State) : Answer :=
  onDev s fun d => unlessLocked d pgNP 0x54 fun d => npWrite d 3 kind.toNat 0 cond index
/-- PATHLOSS_MEASURE (R264). -/
def execPathlossMeasure (g : Fin 1024) (p : Fin 2) (rx : Int) (s : State) : Answer :=
  onDev s fun d => pathloss d g p rx
/-- PATHLOSS_HOLD_EXPIRE (R266). -/
def execPathlossHoldExpire (g : Fin 1024) (p : Fin 2) (s : State) : Answer := onDev s fun d => plExpire d g p
/-- QUIET_SYMBOL_DECISION (R268). -/
def execQuietSymbolDecision (n : Fin 1024) (dens floor : Int) (s : State) : Answer :=
  onDev s fun d => quietSymbol d n dens floor
/-- NOISE_RISE_EVAL (R271). -/
def execNoiseRiseEval (n : Fin 1024) (mean : Int) (s : State) : Answer := onDev s fun d => noiseRise d n mean

end Sys2Proof.Machine
end

