-- ==== Sys2Proof/Machine/RunTx.lean ====
section
/-!
DEFINITION. Meanings: transmit chains, predistortion and emissions.
-/

namespace Sys2Proof.Machine

/-- TX_ENABLE (R280). -/
def execTxEnable (p : Fin 4) (s : State) : Answer :=
  onDev s fun d => unlessChanged d (pgTX p) TX.TX_CTRL_EN 1 fun d => txEnable d p
/-- TX_BIAS_DONE (R280). -/
def execTxBiasDone (p : Fin 4) (s : State) : Answer := onDev s fun d => txBiasDone d p
/-- TX_STOP (R281). -/
def execTxStop (p : Fin 4) (s : State) : Answer := onDev s fun d => txStop d p
/-- TX_DRAIN_OFF (R281). -/
def execTxDrainOff (p : Fin 4) (s : State) : Answer := onDev s fun d => txDrainOff d p
/-- BIAS_TRACK_UPDATE (R280). -/
def execBiasTrackUpdate (p : Fin 4) (idq : BitVec 16) (s : State) : Answer := onDev s fun d => biasTrack d p idq.toNat
/-- LOAD_MEASURE (R282). -/
def execLoadMeasure (p : Fin 4) (refl : Int) (s : State) : Answer := onDev s fun d => loadMeasure d p refl
/-- LOAD_RETRY (R283). -/
def execLoadRetry (p : Fin 4) (s : State) : Answer := onDev s fun d => loadRetry d p
/-- LOAD_TRIES_RECOVER (R283). -/
def execLoadTriesRecover (p : Fin 4) (s : State) : Answer := onDev s fun d => loadRecover d p
/-- LOAD_RELEASE (R283). -/
def execLoadRelease (p : Fin 4) (s : State) : Answer :=
  onDev s fun d => unlessLocked d (pgTX p) 0x40 fun d => loadRelease d p
/-- DPD_CAPTURE (R286). -/
def execDpdCapture (p : Fin 4) (nmse : Int) (kept : Bool) (ls : List (Int × Int)) (s : State) : Answer :=
  onDev s fun d => dpdCapture d p nmse kept ls
/-- DPD_UPDATE_APPLY (R287). -/
def execDpdUpdateApply (p : Fin 4) (s : State) : Answer := onDev s fun d => dpdApply d p
/-- EM_SWEEP_DONE (R289). -/
def execEmSweepDone (p : Fin 4) (margin : Option Int) (freq : Word) (s : State) : Answer :=
  onDev s fun d => sweepDone d p margin freq.toNat
/-- EM_SWEEP_START (R289). -/
def execEmSweepStart (p : Fin 4) (s : State) : Answer := onDev s fun d => sweepStart d p

end Sys2Proof.Machine
end

