-- ==== Sys2Proof/Machine/RunExt.lean ====
section
/-!
DEFINITION. Meanings: extension links.
-/

namespace Sys2Proof.Machine

/-- EXT_SIGNAL_CHANGE (R315). -/
def execExtSignalChange (k : Fin 4) (present los txFault : Bool) (rxPwr txPwr : Int) (s : State) : Answer :=
  onDev s fun d => extSignal d k present los txFault rxPwr txPwr
/-- EXT_BLOCK_LOCK (R315). -/
def execExtBlockLock (k : Fin 4) (s : State) : Answer := onDev s fun d => extBlockLock d k
/-- EXT_FRAME_LOCK (R299). -/
def execExtFrameLock (k : Fin 4) (head : Bool) (s : State) : Answer := onDev s fun d => extFrameLock d k head
/-- EXT_FRAME_LOCK_LOSS (R299). -/
def execExtFrameLockLoss (k : Fin 4) (head : Bool) (s : State) : Answer := onDev s fun d => extFrameLoss d k head
/-- EXT_FRAME_RX (R298). -/
def execExtFrameRx (k : Fin 4) (marker : Bool) (hdr : BitVec 224) (crc : BitVec 32) (frag : List Byte) (badRows : Nat) (s : State) :
    Answer :=
  onDev s fun d => extFrame d k marker (hdr ++ crc) (frag.map BitVec.toNat) badRows
/-- RX_CAPS (R309). -/
def execRxCaps (k : Fin 4) (words : List Word) (crc : Word) (s : State) : Answer :=
  onDev s fun d => rxCaps d k ((words ++ [crc]).map BitVec.toNat)
/-- RX_ALARM (R312). -/
def execRxAlarm (k : Fin 4) (bits : BitVec 16) (s : State) : Answer := onDev s fun d => rxAlarm d k bits.toNat
/-- RX_STATUS (R308). -/
def execRxStatus (k : Fin 4) (a b : BitVec 16 × BitVec 16 × BitVec 16) (s : State) : Answer :=
  onDev s fun d => rxStatus d k (a.1.toNat, a.2.1.toNat, a.2.2.toNat) (b.1.toNat, b.2.1.toNat, b.2.2.toNat)
/-- RX_ECHO_TIME (R313). -/
def execRxEchoTime (k : Fin 4) (tHead : Word) (s : State) : Answer := onDev s fun d => rxEcho d k tHead.toNat
/-- EXT_RTT_MEASURE (R313). -/
def execExtRttMeasure (k : Fin 4) (tLoop : Word) (s : State) : Answer := onDev s fun d => extRtt d k tLoop.toNat
/-- CTRL_FRAG_TIMEOUT (R308). -/
def execCtrlFragTimeout (k : Fin 4) (seq : BitVec 12) (s : State) : Answer :=
  onDev s fun d => fragTimeout d k seq.toNat
/-- EXT_RETRAIN (R315). -/
def execExtRetrain (k : Fin 4) (s : State) : Answer :=
  onDev s fun d => unlessLocked d (pgEXT k) 0x40 fun d => extRetrain d k
/-- EXT_ENABLE (R315). -/
def execExtEnable (k : Fin 4) (en : Bool) (s : State) : Answer :=
  onDev s fun d => unlessChanged d (pgEXT k) EXT.EXT_CTRL_EN (b2n en) fun d => extEnable d k en
/-- EXT_RUN_ENABLE (R315). -/
def execExtRunEnable (k : Fin 4) (en : Bool) (s : State) : Answer :=
  onDev s fun d => unlessChanged d (pgEXT k) EXT.EXT_CTRL_RUN_EN (b2n en) fun d => extRunEnable d k en
/-- CAPS_DATA_READ (R317). -/
def execCapsDataRead (k : Fin 4) (s : State) : Answer := onDev s fun d => capsRead (answer d (pgEXT k) 0x70) k
/-- EXT_BLOCK_LOCK_LOSS (R315). -/
def execExtBlockLockLoss (k : Fin 4) (s : State) : Answer := onDev s fun d => extBlockLoss d k

end Sys2Proof.Machine
end

