-- ==== Sys2Proof/Machine/RunMon.lean ====
section
/-!
DEFINITION. Meanings: monitor converters.
-/

namespace Sys2Proof.Machine

/-- MON_ENABLE (R323). -/
def execMonEnable (en : Bool) (s : State) : Answer :=
  onDev s fun d => unlessChanged d pgMON MON.MON_CTRL_EN (b2n en) fun d => monEnable d en
/-- MON_RESTART (R325). -/
def execMonRestart (s : State) : Answer := onDev s fun d => unlessLocked d pgMON 0x40 monRestart
/-- MON_CONVERSION_DONE (R320). -/
def execMonConversionDone (x0 x1 : Reading) (lag : Nat) (s : State) : Answer :=
  onDev s fun d => monConvert d x0 x1 lag
/-- MON_ENTRY_DELAY_END (R323). -/
def execMonEntryDelayEnd (s : State) : Answer := onDev s monDelayEnd
/-- MON_SERVICE_SLOT (R326). -/
def execMonServiceSlot (s : State) : Answer := onDev s monService
/-- MON_BURST_DONE (R328). -/
def execMonBurstDone (s : State) : Answer := onDev s monBurstDone
/-- MON_BURST_TIMEOUT (R328). -/
def execMonBurstTimeout (s : State) : Answer := onDev s monTimeout
/-- MON_CAL_ZERO (R332). -/
def execMonCalZero (ch : Fin 2) (s : State) : Answer :=
  onDev s fun d => unlessLocked d pgMON 0x5C fun d => calZero d ch
/-- MON_CAL_FULL_SCALE (R332). -/
def execMonCalFullScale (ch : Fin 2) (s : State) : Answer :=
  onDev s fun d => unlessLocked d pgMON 0x5C fun d => calFullScale d ch
/-- MON_CAL_SAVE_DONE (R333). -/
def execMonCalSaveDone (s : State) : Answer := onDev s calSaved
/-- MON_RING_READ (R331). -/
def execMonRingRead (s : State) : Answer := onDev s fun d => ringRead (answer d pgMON 0x50)

end Sys2Proof.Machine
end

