-- ==== Sys2Proof/Machine/RunPower.lean ====
section
/-!
DEFINITION. Meanings: power, hold-up energy, temperatures and the DC feeds.
-/

namespace Sys2Proof.Machine

/-- PWR_CAP_COMPARE (R338). -/
def execPwrCapCompare (power volt : BitVec 16) (s : State) : Answer :=
  onDev s fun d => capCompare d power.toNat volt.toNat
/-- HOLD_ENERGY_MEASURE (R341). -/
def execHoldEnergyMeasure (mj : BitVec 16) (s : State) : Answer := onDev s fun d => holdMeasure d mj.toNat
/-- SENSOR_READ (R344). -/
def execSensorRead (raw : List (Option Int)) (s : State) : Answer := onDev s fun d => sensorRead d raw
/-- THERMAL_SHED_STEP (R348). -/
def execThermalShedStep (i : Fin 14) (s : State) : Answer := onDev s fun d => thermalShed d i
/-- ZONE_SHUTDOWN (R349). -/
def execZoneShutdown (i : Fin 10) (t : Int) (s : State) : Answer := onDev s fun d => zoneTrip d i t
/-- ZONE_RESTART (R350). -/
def execZoneRestart (z : Fin 8) (s : State) : Answer := onDev s fun d => zoneRestart d z
/-- SENSOR_MAP_OUT (R352). -/
def execSensorMapOut (i : Fin 16) (s : State) : Answer :=
  onDev s fun d => unlessLocked d pgTHM 0xE4 fun d => mapOut d i
/-- SENSOR_RESTORE (R352). -/
def execSensorRestore (i : Fin 16) (s : State) : Answer :=
  onDev s fun d => unlessLocked d pgTHM 0xE4 fun d => mapRestore d i
/-- DCF_ENABLE_WRITE (R54). -/
def execDcfEnableWrite (p : Fin 4) (en : Bool) (cause : Fin 3) (s : State) : Answer :=
  onDev s fun d => unlessChanged d (pgDCF p) DCF.DCF_CTRL_ENABLE (b2n en) fun d => dcfEnable d p en cause
/-- DCF_RELEASE (R53). -/
def execDcfRelease (p : Fin 4) (s : State) : Answer :=
  onDev s fun d => unlessLocked d (pgDCF p) 0x40 fun d => dcfRelease d p
/-- DCF_OVERCURRENT_TRIP (R52). -/
def execDcfOvercurrentTrip (p : Fin 4) (s : State) : Answer := onDev s fun d => dcfFault d p 1
/-- DCF_ARC_DETECT (R52). -/
def execDcfArcDetect (p : Fin 4) (s : State) : Answer := onDev s fun d => dcfFault d p 2
/-- DCF_RAMP_DONE (R51). -/
def execDcfRampDone (p : Fin 4) (mv10 ma : BitVec 16) (s : State) : Answer :=
  onDev s fun d => dcfRampDone d p mv10.toNat ma.toNat
/-- DCF_RETRY (R52). -/
def execDcfRetry (p : Fin 4) (s : State) : Answer := onDev s fun d => dcfRetryNow d p
/-- DCF_RETRY_RESET (R52). -/
def execDcfRetryReset (p : Fin 4) (s : State) : Answer := onDev s fun d => dcfRetryReset d p
/-- DCF_OPEN_DETECT (R57). -/
def execDcfOpenDetect (p : Fin 4) (ma : BitVec 16) (s : State) : Answer := onDev s fun d => dcfOpen d p ma.toNat
/-- DCF_OPEN_CLEAR (R57). -/
def execDcfOpenClear (p : Fin 4) (ma : BitVec 16) (s : State) : Answer := onDev s fun d => dcfOpenClear d p ma.toNat

end Sys2Proof.Machine
end

