-- ==== Sys2Proof/Machine/RunConv.lean ====
section
/-!
DEFINITION. Meanings: RF converters.
-/

namespace Sys2Proof.Machine

/-- CONV_CAL_START (R65). -/
def execConvCalStart (i : Fin 12) (s : State) : Answer :=
  onDev s fun d => unlessLocked d (pgCONV i) 0x44 fun d => calStart d i
/-- CONV_CAL_ALL (R65). -/
def execConvCalAll (s : State) : Answer := onDev s fun d => unlessLocked d pgCGLB 0x40 calAll
/-- CONV_CAL_DONE (R66). -/
def execConvCalDone (i : Fin 12) (spur gain offs : Int) (found : Int × List SubCorr) (s : State) : Answer :=
  onDev s fun d => calEnd d i spur gain offs found.1 found.2
/-- CONV_CAL_SAVE (R69). -/
def execConvCalSave (s : State) : Answer := onDev s fun d => unlessLocked d pgCGLB 0x40 saveRequest
/-- CONV_SAVE_DONE (R69). -/
def execConvSaveDone (ok : Bool) (s : State) : Answer := onDev s fun d => saveEnd d ok
/-- CONV_AUTO_SAVE (R69). -/
def execConvAutoSave (s : State) : Answer := onDev s autoSave
/-- CONV_BG_UPDATE (R68). -/
def execConvBgUpdate (i : Fin 12) (ovr : Bool) (rms : Int) (est : List SubCorr) (s : State) : Answer :=
  onDev s fun d => bgUpdate d i ovr rms est
/-- CONV_SPUR_FAULT (R71). -/
def execConvSpurFault (i : Fin 12) (spur : Int) (s : State) : Answer := onDev s fun d => spurFault d i spur
/-- ADC_OVERRANGE (R63). -/
def execAdcOverrange (i : Fin 12) (s : State) : Answer := onDev s fun d => adcOverrange d i
/-- DAC_CLIP (R64). -/
def execDacClip (p : Fin 4) (s : State) : Answer := onDev s fun d => overrange d (4 + p)

end Sys2Proof.Machine
end

