-- ==== Sys2Proof/Machine/RunHost.lean ====
section
/-!
DEFINITION. Meanings: PCI Express, rings, queues, DMA and captures.
-/

namespace Sys2Proof.Machine

/-- PCIE_LINK_UP (R356). -/
def execPcieLinkUp (width : Fin 17) (speed : Fin 5) (extTag mps128 : Bool) (s : State) : Answer :=
  onDev s fun d => pcieUp d width speed extTag mps128
/-- PCIE_LINK_DOWN (R359). -/
def execPcieLinkDown (s : State) : Answer := onDev s pcieDown
/-- PCIE_FLR (R359). -/
def execPcieFlr (s : State) : Answer := onDev s pcieReset
/-- PCIE_HOT_RESET (R359). -/
def execPcieHotReset (s : State) : Answer := onDev s pcieReset
/-- PERST_ASSERT (R466). -/
def execPerstAssert (s : State) : Answer := onDev s pcieDown
/-- MSIX_UNMASK (R358). -/
def execMsixUnmask (x : MsixWrite) (s : State) : Answer := onDev s fun d => msixWrite d x
/-- MASTER_READY (R361). -/
def execMasterReady (s : State) : Answer := onDev s masterReady
/-- AGENT_RESET (R363). -/
def execAgentReset (s : State) : Answer := onDev s agentReset
/-- RING_DOORBELL (R370). -/
def execRingDoorbell (r : Fin 64) (tail : Word) (s : State) : Answer := onDev s fun d => ringDoorbell d r tail.toNat
/-- RING_ENABLE (R370). -/
def execRingEnable (r : Fin 64) (en : Bool) (s : State) : Answer :=
  onDev s fun d => unlessChanged d pgRING (RING.RING_CFG_EN r) (b2n en) fun d => ringEnable d r en
/-- RING_MOD_TIMER (R371). -/
def execRingModTimer (r : Fin 64) (s : State) : Answer := onDev s fun d => ringModEnd d r
/-- QUEUE_FLUSH (R373). -/
def execQueueFlush (q : QueueId × Fin 4) (s : State) : Answer :=
  let k := queueKey q.1
  onDev s fun d => unlessLocked d (qPage k) (0x58 + 0x100 * qBlk k) fun d => queueFlush d k q.2
/-- LEVEL_REPORT_TIMER (R364). -/
def execLevelReportTimer (s : State) : Answer := onDev s levelReports
/-- DMA_DOORBELL (R377). -/
def execDmaDoorbell (c : Fin 16) (prod : Word) (s : State) : Answer := onDev s fun d => dmaDoorbell d c prod.toNat
/-- DMA_DESC_DONE (R377). -/
def execDmaDescDone (c : Fin 16) (x : Desc) (data : List Byte) (s : State) : Answer :=
  onMem s fun d m => dmaComplete d m c x data
/-- DMA_COMPLETION_TIMEOUT (R379). -/
def execDmaCompletionTimeout (c : Fin 16) (err : Fin 3) (s : State) : Answer := onDev s fun d => dmaFail d c err
/-- DMA_RETRY (R379). -/
def execDmaRetry (c : Fin 16) (s : State) : Answer :=
  onDev s fun d => unlessLocked d pgDMA (0x60 + 0x40 * c.val) fun d => dmaRetry d c
/-- DMA_SKIP (R379). -/
def execDmaSkip (c : Fin 16) (s : State) : Answer :=
  onDev s fun d => unlessLocked d pgDMA (0x60 + 0x40 * c.val) fun d => dmaSkip d c
/-- DMA_ABORT (R379). -/
def execDmaAbort (c : Fin 16) (s : State) : Answer :=
  onDev s fun d => unlessLocked d pgDMA (0x60 + 0x40 * c.val) fun d => dmaAbort d c
/-- CAPTURE_START_CMD (R381). -/
def execCaptureStartCmd (c : Fin 32) (offs : Fin 524288) (s : State) : Answer :=
  onDev s fun d => unlessLocked d pgCAP (0x4C + 0x20 * c.val) fun d => capStart d c offs
/-- CAPTURE_STOP_CMD (R382). -/
def execCaptureStopCmd (c : Fin 32) (l : List Sample) (s : State) : Answer :=
  onMem s fun d m => if locked d pgCAP then (setError d pgCAP (0x4C + 0x20 * c.val), m) else capStop d m c l
/-- CAPTURE_BUFFER_FULL (R382). -/
def execCaptureBufferFull (c : Fin 32) (l : List Sample) (s : State) : Answer := onMem s fun d m => capFull d m c l
/-- STREAM_BLOCK_DONE (R383). -/
def execStreamBlockDone (c : Fin 32) (offs : Fin 524288) (l : List Sample) (x : Option Desc) (s : State) : Answer :=
  onMem s fun d m => streamBlock d m c offs l x
/-- CAPTURE_WINDOW_ACCESS (R380). -/
def execCaptureWindowAccess (offset : Fin 1073741824) (acc : WindowAccess) (s : State) : Answer :=
  windowAccess s offset acc
/-- PCIE_LINK_SPEED_DROP (R383). -/
def execPcieLinkSpeedDrop (width : Fin 17) (speed : Fin 5) (s : State) : Answer :=
  onDev s fun d => pcieRetrain d width speed

end Sys2Proof.Machine
end

