-- ==== Sys2Proof/Machine/RunFault.lean ====
section
/-!
DEFINITION. Meanings: the fault collector and Tally.
-/

namespace Sys2Proof.Machine

/-- FAULT_DETECT (R407). -/
def execFaultDetect (cycle : Fin 37500) (sources : List (Fin 256)) (s : State) : Answer :=
  onDev s fun d => faultEvents d cycle (joinEvents [] (sources.map Fin.val))
/-- FAULT_CAUSE_END (R405). -/
def execFaultCauseEnd (source : Fin 256) (s : State) : Answer := onDev s fun d => causeEnd d source
/-- WEEVIL_SUBSTITUTE (R29). -/
def execWeevilSubstitute (k : Fin 32) (s : State) : Answer := onDev s fun d => substitute d k
/-- FAULT_STICKY_CLEAR (R408). -/
def execFaultStickyClear (g : Fin 8) (bits : Word) (s : State) : Answer := onDev s fun d => stickyClear d g bits.toNat
/-- FIRST_FAULT_CLEAR (R409). -/
def execFirstFaultClear (cycle : Fin 37500) (same : List (Fin 256)) (s : State) : Answer :=
  onDev s fun d => firstClear d cycle (same.map Fin.val)
/-- TAL_FLUSH_CMD (R423). -/
def execTalFlushCmd (s : State) : Answer := onDev s fun d => unlessLocked d pgTAL 0x40 tallyFlush
/-- TAL_FLUSH_TIMER (R423). -/
def execTalFlushTimer (s : State) : Answer := onDev s tallyFlush
/-- TAL_FLUSH_COMMIT (R423). -/
def execTalFlushCommit (s : State) : Answer := onDev s flushCommit
/-- COUNTER_STORE_TIMER (R427). -/
def execCounterStoreTimer (s : State) : Answer := onDev s storeCounters
/-- WALL_SET (R428). -/
def execWallSet (hi : Word) (s : State) : Answer :=
  onDev s fun d =>
    if locked d pgTAL && decide (peek d pgTAL 0x60 ≠ hi.toNat) then setError d pgTAL 0x60 else wallSet d hi.toNat
/-- TALLY_CLEAR (R432). -/
def execTallyClear (areas : BitVec 2) (s : State) : Answer :=
  onDev s fun d => unlessLocked d pgTAL 0x64 fun d => tallyClear d areas.toNat
/-- TALLY_ERASE_DONE (R432). -/
def execTallyEraseDone (s : State) : Answer := onDev s eraseDone
/-- TALLY_READ (R433). -/
def execTallyRead (mode : BitVec 2) (idx : BitVec 19) (s : State) : Answer :=
  onDev s fun d => unlessLocked d pgTRD 0x40 fun d => tallyRead d mode.toNat idx.toNat
/-- TALLY_FETCH_DONE (R433). -/
def execTallyFetchDone (s : State) : Answer := onDev s fetchDone
/-- TALLY_EXPORT (R434). -/
def execTallyExport (annex : Bool) (s : State) : Answer :=
  onDev s fun d => unlessLocked d pgTRD 0x60 fun d => tallyExport d annex
/-- TALLY_EXPORT_DONE (R434). -/
def execTallyExportDone (s : State) : Answer := onMem s fun d m => exportDone d m
/-- OVMINTE_RUNTIME_RELOAD (R405). -/
def execOvminteRuntimeReload (s : State) : Answer := onDev s runtimeReload

end Sys2Proof.Machine
end

