-- ==== Sys2Proof/Machine/RunBoot.lean ====
section
/-!
DEFINITION. Meanings: start-up, images, attestation and tokens.
-/

namespace Sys2Proof.Machine

/-- START_STEP_DONE (R439). -/
def execStartStepDone (x : StepIn) (s : State) : Answer := onDev s fun d => startStep d x
/-- START_STEP_TIMEOUT (R438). -/
def execStartStepTimeout (s : State) : Answer := onDev s startTimeout
/-- START_RETRY (R443). -/
def execStartRetry (s : State) : Answer := onDev s startRetry
/-- SURVEY_PHASE_END (R442). -/
def execSurveyPhaseEnd (s : State) : Answer := onDev s surveyEnd
/-- GAIN_RAMP_PHASE_END (R442). -/
def execGainRampPhaseEnd (s : State) : Answer := onDev s rampEnd
/-- BOOT_CLR_ALT (R447). -/
def execBootClrAlt (s : State) : Answer := onDev s fun d => unlessLocked d pgBOOT 0x48 bootClrAlt
/-- FT_RUN (R447). -/
def execFtRun (s : State) : Answer := onDev s fun d => unlessLocked d pgBOOT 0x48 ftRun
/-- FILTER_TEST_DONE (R447). -/
def execFilterTestDone (bad : List (Fin 4 × Fin 8)) (s : State) : Answer :=
  onDev s fun d => ftDone d (bad.map fun e => (e.1.val, e.2.val))
/-- IMAGE_INSTALL (R452). -/
def execImageInstall (slot : Fin 2) (pref sigOk digestOk : Bool) (s : State) : Answer :=
  onDev s fun d => unlessLocked d pgIMG 0x54 fun d => imageInstall d s.cap slot pref sigOk digestOk
/-- IMAGE_INSTALL_DONE (R452). -/
def execImageInstallDone (ok : Bool) (s : State) : Answer := onDev s fun d => installDone d ok
/-- ATTEST (R455). -/
def execAttest (s : State) : Answer :=
  onMem s fun d m => if locked d pgTRUST then (setError d pgTRUST 0x5C, m) else attest d m
/-- TOKEN_CHECK (R459). -/
def execTokenCheck (sigOk : Bool) (s : State) : Answer :=
  onDev s fun d => unlessLocked d pgTRUST 0x4C fun d => tokenCheck d s.cap sigOk
/-- TOKEN_HOLD_EXPIRE (R459). -/
def execTokenHoldExpire (s : State) : Answer := onDev s tokenExpire
/-- ENROLL_FIRST (R457). -/
def execEnrollFirst (s : State) : Answer := onDev s fun d => unlessLocked d pgTRUST 0x58 fun d => enrollFirst d s.cap

end Sys2Proof.Machine
end

