-- ==== Sys2Proof/Machine/RunProv.lean ====
section
/-!
DEFINITION. Meanings: injectors, forced faults and loopbacks.
-/

namespace Sys2Proof.Machine

/-- INJ_ARM (R476). -/
def execInjArm (i : Fin 8) (kind : BitVec 3) (action : BitVec 2) (dir : BitVec 1) (index : BitVec 16)
    (s : State) : Answer :=
  onDev s fun d =>
    tgtWrite d i 1 kind.toNat action.toNat dir.toNat index.toNat fun d => injArm d i kind.toNat action.toNat dir.toNat index.toNat
/-- INJ_DISARM (R476). -/
def execInjDisarm (i : Fin 8) (kind : BitVec 3) (action : BitVec 2) (dir : BitVec 1) (index : BitVec 16)
    (s : State) : Answer :=
  onDev s fun d =>
    tgtWrite d i 0 kind.toNat action.toNat dir.toNat index.toNat fun d => injDisarm d i kind.toNat action.toNat dir.toNat index.toNat
/-- INJ_STOP_ALL (R476). -/
def execInjStopAll (s : State) : Answer := onDev s fun d => unlessLocked d pgPROV 0x40 injStopAll
/-- INJ_HOLD_TIMEOUT (R477). -/
def execInjHoldTimeout (i : Fin 8) (s : State) : Answer := onDev s fun d => injTimeout d i
/-- PROV_FORCE_GO (R479). -/
def execProvForceGo (cycle : Fin 37500) (real : List (Fin 256)) (s : State) : Answer :=
  onDev s fun d => forceGo d cycle (real.map Fin.val)
/-- LB_EXT_WRITE (R481). -/
def execLbExtWrite (v : BitVec 8) (s : State) : Answer :=
  onDev s fun d => unlessChanged d pgPROV PROV.LB_EXT_LB v.toNat fun d => lbWrite d v.toNat

end Sys2Proof.Machine
end

