-- ==== Sys2Proof/Machine/Dispatch.lean ====
section
/-!
DEFINITION. One arm per command.
-/

namespace Sys2Proof.Machine

def exec (i : Instr) (s : State) : Host.Outcome State Fault Refusal :=
  match i with
  | .powerOn boot agent => Sys2Proof.Machine.execPowerOn boot agent s
  | .powerFailDeclared steps len wrote torn => Sys2Proof.Machine.execPowerFailDeclared steps len wrote torn s
  | .modeCmdEnterTest => Sys2Proof.Machine.execModeCmdEnterTest s
  | .modeCmdLeaveTest => Sys2Proof.Machine.execModeCmdLeaveTest s
  | .modeCmdEnterSafe => Sys2Proof.Machine.execModeCmdEnterSafe s
  | .hostRestart key => Sys2Proof.Machine.execHostRestart key s
  | .regWrite page word value => Sys2Proof.Machine.execRegWrite page word value s
  | .pageCommit page ticks => Sys2Proof.Machine.execPageCommit page ticks s
  | .pageCancel page ticks => Sys2Proof.Machine.execPageCancel page ticks s
  | .pageSoftReset page => Sys2Proof.Machine.execPageSoftReset page s
  | .pageLock page => Sys2Proof.Machine.execPageLock page s
  | .pageEnableWrite page en => Sys2Proof.Machine.execPageEnableWrite page en s
  | .intMaskWrite page mask => Sys2Proof.Machine.execIntMaskWrite page mask s
  | .faultForceWrite page bits cycle real => Sys2Proof.Machine.execFaultForceWrite page bits cycle real s
  | .loopLatch x => Sys2Proof.Machine.execLoopLatch x s
  | .loopEvaluate => Sys2Proof.Machine.execLoopEvaluate s
  | .loopGainWrite => Sys2Proof.Machine.execLoopGainWrite s
  | .deactivationRampDone n => Sys2Proof.Machine.execDeactivationRampDone n s
  | .airFrameBoundary c x a => Sys2Proof.Machine.execAirFrameBoundary c x a s
  | .actHostEvent c ix x => Sys2Proof.Machine.execActHostEvent c ix x s
  | .actMonTrigger c ix x => Sys2Proof.Machine.execActMonTrigger c ix x s
  | .actCaptureStart c ix x => Sys2Proof.Machine.execActCaptureStart c ix x s
  | .actCaptureStop c ix x => Sys2Proof.Machine.execActCaptureStop c ix x s
  | .actMeasOpen c ix x => Sys2Proof.Machine.execActMeasOpen c ix x s
  | .actMeasClose c ix x => Sys2Proof.Machine.execActMeasClose c ix x s
  | .actSoundBurst c ix x => Sys2Proof.Machine.execActSoundBurst c ix x s
  | .airLock c cell snr x => Sys2Proof.Machine.execAirLock c cell snr x s
  | .frameNumberRead c num k => Sys2Proof.Machine.execFrameNumberRead c num k s
  | .airHoldoverEnter c => Sys2Proof.Machine.execAirHoldoverEnter c s
  | .airLostEnter c => Sys2Proof.Machine.execAirLostEnter c s
  | .airRelock c cell snr x => Sys2Proof.Machine.execAirRelock c cell snr x s
  | .airTimingJump c x => Sys2Proof.Machine.execAirTimingJump c x s
  | .tddMuteLift c n => Sys2Proof.Machine.execTddMuteLift c n s
  | .frameNowRead c tick => Sys2Proof.Machine.execFrameNowRead c tick s
  | .devLoopRead => Sys2Proof.Machine.execDevLoopRead s
  | .refSourceChange offs => Sys2Proof.Machine.execRefSourceChange offs s
  | .j13PresenceChange valid => Sys2Proof.Machine.execJ13PresenceChange valid s
  | .tddSwitchAction b slot tx period tick => Sys2Proof.Machine.execTddSwitchAction b slot tx period tick s
  | .trSwitchDone p slot => Sys2Proof.Machine.execTrSwitchDone p slot s
  | .tddGateChange n opens period => Sys2Proof.Machine.execTddGateChange n opens period s
  | .segSyncReset n => Sys2Proof.Machine.execSegSyncReset n s
  | .coefSeal n loop => Sys2Proof.Machine.execCoefSeal n loop s
  | .shadowCopyDone n loop => Sys2Proof.Machine.execShadowCopyDone n loop s
  | .invalidRunEnd n => Sys2Proof.Machine.execInvalidRunEnd n s
  | .toneWindowEnd n ratio discard => Sys2Proof.Machine.execToneWindowEnd n ratio discard s
  | .dithStart amp ctx half => Sys2Proof.Machine.execDithStart amp ctx half s
  | .dithStop => Sys2Proof.Machine.execDithStop s
  | .traceArm pre slot src => Sys2Proof.Machine.execTraceArm pre slot src s
  | .traceForce => Sys2Proof.Machine.execTraceForce s
  | .bufDataRead => Sys2Proof.Machine.execBufDataRead s
  | .isoEstimateDone n x => Sys2Proof.Machine.execIsoEstimateDone n x s
  | .cancUpdateApply n => Sys2Proof.Machine.execCancUpdateApply n s
  | .guardWindowEnd n eHs eRs eNs iso => Sys2Proof.Machine.execGuardWindowEnd n eHs eRs eNs iso s
  | .guardFailApply n => Sys2Proof.Machine.execGuardFailApply n s
  | .isoValidLapse n => Sys2Proof.Machine.execIsoValidLapse n s
  | .soundBurstEnd b => Sys2Proof.Machine.execSoundBurstEnd b s
  | .nodeIdWrite id => Sys2Proof.Machine.execNodeIdWrite id s
  | .irDataRead n => Sys2Proof.Machine.execIrDataRead n s
  | .lnkEnable en => Sys2Proof.Machine.execLnkEnable en s
  | .helloTimer => Sys2Proof.Machine.execHelloTimer s
  | .reportTimer => Sys2Proof.Machine.execReportTimer s
  | .frameTxStart t => Sys2Proof.Machine.execFrameTxStart t s
  | .frameTxEnd t => Sys2Proof.Machine.execFrameTxEnd t s
  | .deafEnd t => Sys2Proof.Machine.execDeafEnd t s
  | .preambleDetect l nf dets => Sys2Proof.Machine.execPreambleDetect l nf dets s
  | .frameSyncFound l => Sys2Proof.Machine.execFrameSyncFound l s
  | .frameSyncTimeout l live => Sys2Proof.Machine.execFrameSyncTimeout l live s
  | .frameHeaderDone l ver typ len src dst crc live => Sys2Proof.Machine.execFrameHeaderDone l ver typ len src dst crc live s
  | .framePayloadDone l bytes crc => Sys2Proof.Machine.execFramePayloadDone l bytes crc s
  | .rxHello => Sys2Proof.Machine.execRxHello s
  | .rxCouplingReport => Sys2Proof.Machine.execRxCouplingReport s
  | .rxGainYield => Sys2Proof.Machine.execRxGainYield s
  | .rxAck => Sys2Proof.Machine.execRxAck s
  | .yieldAckTimeout dst => Sys2Proof.Machine.execYieldAckTimeout dst s
  | .cinEstimateDone l id rows bound => Sys2Proof.Machine.execCinEstimateDone l id rows bound s
  | .yieldEvalTimer => Sys2Proof.Machine.execYieldEvalTimer s
  | .nbStale id => Sys2Proof.Machine.execNbStale id s
  | .nbPin id => Sys2Proof.Machine.execNbPin id s
  | .nbUnpin id => Sys2Proof.Machine.execNbUnpin id s
  | .nbRemove id => Sys2Proof.Machine.execNbRemove id s
  | .donorOverloadQuiet n => Sys2Proof.Machine.execDonorOverloadQuiet n s
  | .protClimb code idx => Sys2Proof.Machine.execProtClimb code idx s
  | .protBackoffExpire code idx => Sys2Proof.Machine.execProtBackoffExpire code idx s
  | .protWatchExpire code idx => Sys2Proof.Machine.execProtWatchExpire code idx s
  | .npOperatorOff kind level index => Sys2Proof.Machine.execNpOperatorOff kind level index s
  | .npOperatorOn kind index => Sys2Proof.Machine.execNpOperatorOn kind index s
  | .npReleaseLatched kind cond index => Sys2Proof.Machine.execNpReleaseLatched kind cond index s
  | .pathlossMeasure g p rx => Sys2Proof.Machine.execPathlossMeasure g p rx s
  | .pathlossHoldExpire g p => Sys2Proof.Machine.execPathlossHoldExpire g p s
  | .quietSymbolDecision n dens floor => Sys2Proof.Machine.execQuietSymbolDecision n dens floor s
  | .noiseRiseEval n mean => Sys2Proof.Machine.execNoiseRiseEval n mean s
  | .txEnable p => Sys2Proof.Machine.execTxEnable p s
  | .txBiasDone p => Sys2Proof.Machine.execTxBiasDone p s
  | .txStop p => Sys2Proof.Machine.execTxStop p s
  | .txDrainOff p => Sys2Proof.Machine.execTxDrainOff p s
  | .biasTrackUpdate p idq => Sys2Proof.Machine.execBiasTrackUpdate p idq s
  | .loadMeasure p refl => Sys2Proof.Machine.execLoadMeasure p refl s
  | .loadRetry p => Sys2Proof.Machine.execLoadRetry p s
  | .loadTriesRecover p => Sys2Proof.Machine.execLoadTriesRecover p s
  | .loadRelease p => Sys2Proof.Machine.execLoadRelease p s
  | .dpdCapture p nmse kept ls => Sys2Proof.Machine.execDpdCapture p nmse kept ls s
  | .dpdUpdateApply p => Sys2Proof.Machine.execDpdUpdateApply p s
  | .emSweepDone p margin freq => Sys2Proof.Machine.execEmSweepDone p margin freq s
  | .extSignalChange k present los txFault rxPwr txPwr => Sys2Proof.Machine.execExtSignalChange k present los txFault rxPwr txPwr s
  | .extBlockLock k => Sys2Proof.Machine.execExtBlockLock k s
  | .extFrameLock k head => Sys2Proof.Machine.execExtFrameLock k head s
  | .extFrameLockLoss k head => Sys2Proof.Machine.execExtFrameLockLoss k head s
  | .extFrameRx k marker hdr crc frag badRows => Sys2Proof.Machine.execExtFrameRx k marker hdr crc frag badRows s
  | .rxCaps k words crc => Sys2Proof.Machine.execRxCaps k words crc s
  | .rxAlarm k bits => Sys2Proof.Machine.execRxAlarm k bits s
  | .rxStatus k a b => Sys2Proof.Machine.execRxStatus k a b s
  | .rxEchoTime k tHead => Sys2Proof.Machine.execRxEchoTime k tHead s
  | .extRttMeasure k tLoop => Sys2Proof.Machine.execExtRttMeasure k tLoop s
  | .ctrlFragTimeout k seq => Sys2Proof.Machine.execCtrlFragTimeout k seq s
  | .extRetrain k => Sys2Proof.Machine.execExtRetrain k s
  | .extEnable k en => Sys2Proof.Machine.execExtEnable k en s
  | .extRunEnable k en => Sys2Proof.Machine.execExtRunEnable k en s
  | .capsDataRead k => Sys2Proof.Machine.execCapsDataRead k s
  | .monEnable en => Sys2Proof.Machine.execMonEnable en s
  | .monRestart => Sys2Proof.Machine.execMonRestart s
  | .monConversionDone x0 x1 lag => Sys2Proof.Machine.execMonConversionDone x0 x1 lag s
  | .monEntryDelayEnd => Sys2Proof.Machine.execMonEntryDelayEnd s
  | .monServiceSlot => Sys2Proof.Machine.execMonServiceSlot s
  | .monBurstDone => Sys2Proof.Machine.execMonBurstDone s
  | .monBurstTimeout => Sys2Proof.Machine.execMonBurstTimeout s
  | .monCalZero ch => Sys2Proof.Machine.execMonCalZero ch s
  | .monCalFullScale ch => Sys2Proof.Machine.execMonCalFullScale ch s
  | .monCalSaveDone => Sys2Proof.Machine.execMonCalSaveDone s
  | .monRingRead => Sys2Proof.Machine.execMonRingRead s
  | .pwrCapCompare power volt => Sys2Proof.Machine.execPwrCapCompare power volt s
  | .holdEnergyMeasure mj => Sys2Proof.Machine.execHoldEnergyMeasure mj s
  | .sensorRead raw => Sys2Proof.Machine.execSensorRead raw s
  | .thermalShedStep ix => Sys2Proof.Machine.execThermalShedStep ix s
  | .zoneShutdown ix t => Sys2Proof.Machine.execZoneShutdown ix t s
  | .zoneRestart z => Sys2Proof.Machine.execZoneRestart z s
  | .sensorMapOut ix => Sys2Proof.Machine.execSensorMapOut ix s
  | .sensorRestore ix => Sys2Proof.Machine.execSensorRestore ix s
  | .dcfEnableWrite p en cause => Sys2Proof.Machine.execDcfEnableWrite p en cause s
  | .dcfRelease p => Sys2Proof.Machine.execDcfRelease p s
  | .dcfOvercurrentTrip p => Sys2Proof.Machine.execDcfOvercurrentTrip p s
  | .dcfArcDetect p => Sys2Proof.Machine.execDcfArcDetect p s
  | .dcfRampDone p mv10 ma => Sys2Proof.Machine.execDcfRampDone p mv10 ma s
  | .dcfRetry p => Sys2Proof.Machine.execDcfRetry p s
  | .dcfRetryReset p => Sys2Proof.Machine.execDcfRetryReset p s
  | .dcfOpenDetect p ma => Sys2Proof.Machine.execDcfOpenDetect p ma s
  | .dcfOpenClear p ma => Sys2Proof.Machine.execDcfOpenClear p ma s
  | .convCalStart ix => Sys2Proof.Machine.execConvCalStart ix s
  | .convCalAll => Sys2Proof.Machine.execConvCalAll s
  | .convCalDone ix spur gain offs found => Sys2Proof.Machine.execConvCalDone ix spur gain offs found s
  | .convCalSave => Sys2Proof.Machine.execConvCalSave s
  | .convSaveDone ok => Sys2Proof.Machine.execConvSaveDone ok s
  | .convAutoSave => Sys2Proof.Machine.execConvAutoSave s
  | .convBgUpdate ix ovr rms est => Sys2Proof.Machine.execConvBgUpdate ix ovr rms est s
  | .convSpurFault ix spur => Sys2Proof.Machine.execConvSpurFault ix spur s
  | .adcOverrange ix => Sys2Proof.Machine.execAdcOverrange ix s
  | .dacClip p => Sys2Proof.Machine.execDacClip p s
  | .pcieLinkUp width speed extTag mps128 => Sys2Proof.Machine.execPcieLinkUp width speed extTag mps128 s
  | .pcieLinkDown => Sys2Proof.Machine.execPcieLinkDown s
  | .pcieFlr => Sys2Proof.Machine.execPcieFlr s
  | .pcieHotReset => Sys2Proof.Machine.execPcieHotReset s
  | .perstAssert => Sys2Proof.Machine.execPerstAssert s
  | .msixUnmask x => Sys2Proof.Machine.execMsixUnmask x s
  | .masterReady => Sys2Proof.Machine.execMasterReady s
  | .agentReset => Sys2Proof.Machine.execAgentReset s
  | .ringDoorbell r tail => Sys2Proof.Machine.execRingDoorbell r tail s
  | .ringEnable r en => Sys2Proof.Machine.execRingEnable r en s
  | .ringModTimer r => Sys2Proof.Machine.execRingModTimer r s
  | .queueFlush q => Sys2Proof.Machine.execQueueFlush q s
  | .levelReportTimer => Sys2Proof.Machine.execLevelReportTimer s
  | .dmaDoorbell c prod => Sys2Proof.Machine.execDmaDoorbell c prod s
  | .dmaDescDone c x data => Sys2Proof.Machine.execDmaDescDone c x data s
  | .dmaCompletionTimeout c err => Sys2Proof.Machine.execDmaCompletionTimeout c err s
  | .dmaRetry c => Sys2Proof.Machine.execDmaRetry c s
  | .dmaSkip c => Sys2Proof.Machine.execDmaSkip c s
  | .dmaAbort c => Sys2Proof.Machine.execDmaAbort c s
  | .captureStartCmd c offs => Sys2Proof.Machine.execCaptureStartCmd c offs s
  | .captureStopCmd c l => Sys2Proof.Machine.execCaptureStopCmd c l s
  | .captureBufferFull c l => Sys2Proof.Machine.execCaptureBufferFull c l s
  | .streamBlockDone c offs l x => Sys2Proof.Machine.execStreamBlockDone c offs l x s
  | .captureWindowAccess offset acc => Sys2Proof.Machine.execCaptureWindowAccess offset acc s
  | .faultDetect cycle sources => Sys2Proof.Machine.execFaultDetect cycle sources s
  | .faultCauseEnd source => Sys2Proof.Machine.execFaultCauseEnd source s
  | .weevilSubstitute k => Sys2Proof.Machine.execWeevilSubstitute k s
  | .faultStickyClear g bits => Sys2Proof.Machine.execFaultStickyClear g bits s
  | .firstFaultClear cycle same => Sys2Proof.Machine.execFirstFaultClear cycle same s
  | .talFlushCmd => Sys2Proof.Machine.execTalFlushCmd s
  | .talFlushTimer => Sys2Proof.Machine.execTalFlushTimer s
  | .talFlushCommit => Sys2Proof.Machine.execTalFlushCommit s
  | .counterStoreTimer => Sys2Proof.Machine.execCounterStoreTimer s
  | .wallSet hi => Sys2Proof.Machine.execWallSet hi s
  | .tallyClear areas => Sys2Proof.Machine.execTallyClear areas s
  | .tallyEraseDone => Sys2Proof.Machine.execTallyEraseDone s
  | .tallyRead mode idx => Sys2Proof.Machine.execTallyRead mode idx s
  | .tallyFetchDone => Sys2Proof.Machine.execTallyFetchDone s
  | .tallyExport annex => Sys2Proof.Machine.execTallyExport annex s
  | .tallyExportDone => Sys2Proof.Machine.execTallyExportDone s
  | .startStepDone x => Sys2Proof.Machine.execStartStepDone x s
  | .startStepTimeout => Sys2Proof.Machine.execStartStepTimeout s
  | .startRetry => Sys2Proof.Machine.execStartRetry s
  | .surveyPhaseEnd => Sys2Proof.Machine.execSurveyPhaseEnd s
  | .gainRampPhaseEnd => Sys2Proof.Machine.execGainRampPhaseEnd s
  | .bootClrAlt => Sys2Proof.Machine.execBootClrAlt s
  | .ftRun => Sys2Proof.Machine.execFtRun s
  | .filterTestDone bad => Sys2Proof.Machine.execFilterTestDone bad s
  | .imageInstall slot pref sigOk digestOk => Sys2Proof.Machine.execImageInstall slot pref sigOk digestOk s
  | .imageInstallDone ok => Sys2Proof.Machine.execImageInstallDone ok s
  | .attest => Sys2Proof.Machine.execAttest s
  | .tokenCheck sigOk => Sys2Proof.Machine.execTokenCheck sigOk s
  | .tokenHoldExpire => Sys2Proof.Machine.execTokenHoldExpire s
  | .enrollFirst => Sys2Proof.Machine.execEnrollFirst s
  | .injArm ix kind action dir index => Sys2Proof.Machine.execInjArm ix kind action dir index s
  | .injDisarm ix kind action dir index => Sys2Proof.Machine.execInjDisarm ix kind action dir index s
  | .injStopAll => Sys2Proof.Machine.execInjStopAll s
  | .injHoldTimeout ix => Sys2Proof.Machine.execInjHoldTimeout ix s
  | .provForceGo cycle real => Sys2Proof.Machine.execProvForceGo cycle real s
  | .lbExtWrite v => Sys2Proof.Machine.execLbExtWrite v s
  | .extBlockLockLoss k => Sys2Proof.Machine.execExtBlockLockLoss k s
  | .emSweepStart p => Sys2Proof.Machine.execEmSweepStart p s
  | .ovminteRuntimeReload => Sys2Proof.Machine.execOvminteRuntimeReload s
  | .pcieLinkSpeedDrop width speed => Sys2Proof.Machine.execPcieLinkSpeedDrop width speed s

end Sys2Proof.Machine
end

