-- ==== Sys2Proof/Machine/Step.lean ====
section
/-!
DEFINITION. One step: the command at the front of the queue.
-/

namespace Sys2Proof.Machine

/-- A state with the rest of the queue. -/
def State.rest (s : State) (q : List Instr) : State := { s with pending := q }

/-- The command at the front is carried out; with none waiting, what happens beside the commands does (DESIGN CHOICE, log entry
67). -/
def step (s : State) : Host.Outcome State Fault Refusal :=
  match s.pending with
  | [] => ambientStep s
  | c :: q => exec c (s.rest q)

/-- No command has a word: the table gives its rows no bits. -/
def State.withFetchWord (s : State) (_nbits _w : Nat) : State := s

end Sys2Proof.Machine
end

