-- ==== Sys2Proof/Safety.lean ====
section
/-!
DEFINITION. The terms in which claims about the machine are made.
-/

namespace Sys2Proof.Machine

/-- Capture memory is in its canonical form: addresses strictly rising, no byte listed that reads as unlisted. -/
def Memory.wf (m : Mem) : Bool := twf (fun _ => (0 : Byte)) m

/-- The engine has power. -/
abbrev Powered (s : State) : Prop := s.dev.supply = .on

/-- The command answers a next state that keeps both queues and every byte of capture memory, with an engine of which P
holds. -/
def Does (c : Instr) (s : State) (P : Dev → Prop) : Prop :=
  ∃ t, exec c s = .next t ∧ t.pending = s.pending ∧ t.ambient = s.ambient ∧ (∀ a, memRead t.cap a = memRead s.cap a) ∧ P t.dev

/-- The command answers a next state that keeps both queues, with an engine and a capture memory of which P holds. -/
def DoesMem (c : Instr) (s : State) (P : Dev → Mem → Prop) : Prop :=
  ∃ t, exec c s = .next t ∧ t.pending = s.pending ∧ t.ambient = s.ambient ∧ P t.dev t.cap

/-- An INT_RAW bit of a page is set. -/
def rawBit (d : Dev) (page bit : Nat) : Bool := (hdr d page).raw.getLsbD bit

/-- The page's LOCK is 0 (R391). -/
abbrev Unlocked (d : Dev) (page : Nat) : Prop := (hdr d page).lock = false

/-- Registers of other pages than the listed ones are unchanged. -/
def OnlyPages (d e : Dev) (l : List Nat) : Prop := ∀ p o, o < 4096 → p ∉ l → reg e p o = reg d p o

/-- The part, device time, the supply, modes, start-up and trust, the active segments, the phases of the loop period, the
payload size and the gain loops' contexts are unchanged. -/
def SameCore (d e : Dev) : Prop :=
  e.part = d.part ∧ e.devLoop = d.devLoop ∧ e.devHi = d.devHi ∧ e.supply = d.supply ∧ e.mode = d.mode ∧ e.prev = d.prev
    ∧ e.testFromSafe = d.testFromSafe ∧ e.modeCause = d.modeCause ∧ e.boot = d.boot ∧ e.trust = d.trust
    ∧ e.act = d.act ∧ e.written = d.written ∧ e.evaluated = d.evaluated ∧ e.mps128 = d.mps128 ∧ e.ctxs = d.ctxs

/-- Only the listed registers of the engine may differ: (page, offset) pairs. -/
def OnlyRegs (d e : Dev) (l : List (Nat × Nat)) : Prop :=
  ∀ p o, o < 4096 → (p, o) ∉ l → reg e p o = reg d p o

/-- A mode command is done: the mode and the previous one, the row of Table 0.5, MODE_CMD's status, INT_RAW bits 0 and 2 of
the mode page; the supply, start-up and trust stay (R399). -/
structure ModeBy (d e : Dev) (m : Mode) (row cmd : Nat) : Prop where
  mode : e.mode = m
  prev : e.prev = d.mode
  cause : e.modeCause = row
  supply : e.supply = d.supply
  boot : e.boot = d.boot
  trust : e.trust = d.trust
  last : rd e pgMODE MODE.CMD_STAT_LAST_CMD = cmd
  state : rd e pgMODE MODE.CMD_STAT_STATE = 2
  changed : rawBit e pgMODE 0 = true
  ended : rawBit e pgMODE 2 = true

/-- A mode command is refused: the mode stays, MODE_CMD's status names the command as refused, ERROR and INT_RAW bit 1 of
the mode page (R399). -/
structure ModeRefused (d e : Dev) (cmd : Nat) : Prop where
  mode : e.mode = d.mode
  prev : e.prev = d.prev
  boot : e.boot = d.boot
  last : rd e pgMODE MODE.CMD_STAT_LAST_CMD = cmd
  state : rd e pgMODE MODE.CMD_STAT_STATE = 3
  error : (hdr e pgMODE).error = true
  refused : rawBit e pgMODE 1 = true

/-- A command turned away by a page: the page's ERROR, and no register changes (R391, R384). -/
def TurnedAway (d e : Dev) (page : Nat) : Prop := (hdr e page).error = true ∧ OnlyRegs d e [] ∧ SameCore d e

/-- What holds of every state that a run reaches: capture memory in its canonical form, and the alarm outputs as their
conditions say (R471). -/
def Inv (s : State) : Prop := Memory.wf s.cap = true ∧ s.dev.alm = almOf s.dev

/-- Kinds of pages whose registers a write stores with no further effect. -/
def plainKind : PageKind → Bool
  | .ident | .glbClk | .emk | .npEsc | .npSegw | .npGrpw | .npGrp | .monSeq | .monRes | .monCorr | .pwrGlb | .thmSegw | .shed
  | .fltSrc | .talSnap | .snap | .grn | .wvl | .bwin => true
  | _ => false

/-- A timing step that crosses no frame boundary forwards and skips no action (R129). -/
def QuietStep (x : StepInput) : Prop := x.e ≤ 0 ∨ (x.crossed = false ∧ x.before = [] ∧ x.after = [])

/-- Kinds of pages whose commit waits for a boundary or a latch (R394). -/
def waitsKind : PageKind → Bool
  | .seg | .loop | .air | .tx | .emk => true
  | _ => false

/-- The command that runs action i of clock c, by the action's type (Table 5.5). -/
def actionCmd (t : Fin 7) (c : Fin 16) (i : Fin 256) (x : ActInput) : Instr :=
  match t with
  | 0 => .actHostEvent c i x
  | 1 => .actMonTrigger c i x
  | 2 => .actCaptureStart c i x
  | 3 => .actCaptureStop c i x
  | 4 => .actMeasOpen c i x
  | 5 => .actMeasClose c i x
  | 6 => .actSoundBurst c i x

/-- Action i of clock c is due on the frame in progress, has type t and runs at a tick of its own (R132 to R134). -/
abbrev ActionRuns (d : Dev) (c i t : Nat) : Prop :=
  actDue d c i = true ∧ rd d (pgAIR c) (AIR.ACT_TIME_TYPE i) = t
    ∧ (rdB d (pgAIR c) (AIR.ACT_TIME_REF i) = true ∨ rd d (pgAIR c) (AIR.ACT_TIME_TICK i) ≠ 0)

/-- No page waits for a commit. -/
def NoCommit (d : Dev) : Prop := ∀ p, (hdr d p).pending = false

/-- Nothing but a load stop keeps port p's chain from starting (R279, R280). -/
def ChainFree (d : Dev) (p : Nat) : Prop :=
  hwHold d p = false ∧ d.mode ≠ .safe ∧ rd d (pgTX p) TX.TX_CTRL_EN = 1 ∧ rd d (pgTX p) TX.TX_STAT_BIAS_FAIL = 0
    ∧ monitorPassed d = true

end Sys2Proof.Machine
end

