-- ==== Sys2Proof/Certificates/Slice0/Obligations.lean ====
section
/-!
DEFINITION. The statements for the provers: what the commands do to the engine, family by family.
-/

open Sys2Proof Sys2Proof.Machine

/-- For every command c, state s and queue q: the step of the state s whose queue holds c at its front and q behind it
answers what c's meaning answers on s with the queue q. What c does to the rest of the state is c's own meaning; the
queue is the model's (log entry 5). (Architecture of the Repeater Engine: The segment) -/
def Obligations.FrontCommandIsCarriedOut : Prop :=
  ∀ (c : Instr) (s : State) (q : List Instr), step (s.rest (c :: q)) = exec c (s.rest q)

/-- A step of a state in which no command waits and nothing happens beside the commands answers that same state;
without power what happens beside them changes nothing else. With power, a read of a converter's OVR_CNT shows its
value as the newest output and then clears EVENTS, and no other register changes; the samples of a band-window sample
enter each ADC, outside TEST and outside a calibration, clamped to -8192 to +8191, OVR marking each that was beyond.
That reads and samples come beside the commands, one a step, is the model's choice (log entries 5 and 67).
(Architecture of the Repeater Engine: The segment) -/
def Obligations.EmptyQueueIdles : Prop :=
  ∀ s : State, s.pending = [] →
    (s.ambient = [] → step s = .next s)
    ∧ (∀ a t, s.ambient = a :: t → ¬ Powered s → step s = .next { s with ambient := t })
    ∧ (∀ (i : Fin 12) (page : Fin 16384) (t : List Ambient), page.val = pgCONV i → s.ambient = .read page 21 :: t → Powered s →
        ∃ r, step s = .next r ∧ r.pending = [] ∧ r.ambient = t ∧ r.cap = s.cap
          ∧ r.dev.rep.out = .readWord (pgCONV i) 0x54 (peek s.dev (pgCONV i) 0x54) :: s.dev.rep.out
          ∧ rd r.dev (pgCONV i) CONV.OVR_CNT_EVENTS = 0 ∧ OnlyRegs s.dev r.dev [(pgCONV i, 0x54)] ∧ SameCore s.dev r.dev)
    ∧ (∀ (x : TickIn) (t : List Ambient), s.ambient = .tick x :: t → Powered s →
        ∃ r, step s = .next r ∧ r.pending = [] ∧ r.ambient = t ∧ r.cap = s.cap ∧ SameCore s.dev r.dev
          ∧ ∀ (p : Fin 4) (j : Fin 20), s.dev.mode ≠ .test → calRuns s.dev p = false →
            let z := (x.adc.getD p []).getD j 0
            let y := (convSmps r.dev p).getD (19 - j) ⟨0, false, false, false⟩
            y.code = max (-8192) (min 8191 z) ∧ y.ovr = decide (z < -8192 ∨ 8191 < z))

/-- The state before power-on holds the invariant: capture memory lists nothing that reads as unlisted memory, its
addresses strictly rising, and the four alarm outputs are what their conditions make them. (Power, Energy Limits and
Thermal Management; Connectors, Pins and Electrical Ratings: Alarm outputs) -/
def Obligations.InvariantAtReset : Prop := Inv State.reset

/-- For every state s in which capture memory is in its canonical form and the alarm outputs are what Table 19.6 makes
of the rest of the state: if a step of s answers a next state, the same holds of that state. The step may be that of
any command, with any operands. (Connectors, Pins and Electrical Ratings: Alarm outputs; Host Interface, Master
Selection and Queues: Capture channels) -/
def Obligations.EveryStepKeepsTheInvariant : Prop := ∀ s t : State, Inv s → step s = .next t → Inv t

/-- For every command c and state s, c's meaning on s either answers a next state with the same waiting commands and
the same events to come beside them, or it is an access to the capture window that crosses a 4 KiB block and answers
the fault crossesBlock. No command is refused. (Architecture of the Repeater Engine: The segment) -/
def Obligations.CommandsLeaveTheQueue : Prop :=
  ∀ (c : Instr) (s : State), (∃ t, exec c s = .next t ∧ t.pending = s.pending ∧ t.ambient = s.ambient) ∨
    (∃ o x, c = .captureWindowAccess o x ∧ inBlock o (windowLen x) = false ∧ exec c s = .fault .crossesBlock)

/-- For every state s whose supply is not on and every command other than POWER_ON that is not an access across a
block of the capture window, the command's meaning on s answers s. POWER_ON changes nothing unless the supply waits
for its start threshold. This is the model's reading (log entry 8). (Power, Energy Limits and Thermal Management:
Supply) -/
def Obligations.WithoutPowerOnlyPowerOnActs : Prop :=
  ∀ (c : Instr) (s : State), ¬ Powered s →
    (∀ o x, c = .captureWindowAccess o x → inBlock o (windowLen x) = true) →
    ((∀ a b, c ≠ .powerOn a b) ∨ s.dev.supply ≠ .waiting) → exec c s = .next s

/-- While the engine is powered, its mode page unlocked and no Ovminte reload under way: MODE_CMD_ENTER_TEST from
SERVICE, RECOVERY or SAFE leads to TEST by row 6, MODE_CMD_LEAVE_TEST from TEST to RECOVERY by row 7 or, where TEST
was entered from SAFE, to SAFE by row 8, and MODE_CMD_ENTER_SAFE from SERVICE, RECOVERY or TEST to SAFE by row 9. Each
answers a next state with the previous mode and the row shown, MODE_CMD's status naming the command as done, and
INT_RAW bits 0 and 2 of the mode page set. During the reload, or from any other mode, each is refused: the mode stays,
the status names it as refused, ERROR and INT_RAW bit 1 are set. With the mode page locked each sets its ERROR alone
and no register changes. Start-up, trust, the supply and capture memory stay. (Scope and Reading Conventions: Modes;
Register Pages and Global Registers: Mode, straps and reset) -/
def Obligations.ModeCommandsChangeTheMode : Prop :=
  ∀ s : State, Powered s →
    let busy := s.dev.rep.flt.away.contains reloading
    (Unlocked s.dev pgMODE → busy = false →
      (s.dev.mode = .service ∨ s.dev.mode = .recovery ∨ s.dev.mode = .safe →
        Does .modeCmdEnterTest s fun e => ModeBy s.dev e .test 6 1 ∧ e.testFromSafe = decide (s.dev.mode = .safe))
      ∧ (s.dev.mode = .test → Does .modeCmdLeaveTest s fun e =>
          if s.dev.testFromSafe then ModeBy s.dev e .safe 8 2 else ModeBy s.dev e .recovery 7 2)
      ∧ (s.dev.mode = .service ∨ s.dev.mode = .recovery ∨ s.dev.mode = .test →
        Does .modeCmdEnterSafe s fun e => ModeBy s.dev e .safe 9 3))
    ∧ (Unlocked s.dev pgMODE →
      (busy = true ∨ s.dev.mode = .start ∨ s.dev.mode = .test →
        Does .modeCmdEnterTest s fun e => ModeRefused s.dev e 1 ∧ e.trust = s.dev.trust)
      ∧ (busy = true ∨ s.dev.mode ≠ .test → Does .modeCmdLeaveTest s fun e => ModeRefused s.dev e 2 ∧ e.trust = s.dev.trust)
      ∧ (busy = true ∨ s.dev.mode = .start ∨ s.dev.mode = .safe →
        Does .modeCmdEnterSafe s fun e => ModeRefused s.dev e 3 ∧ e.trust = s.dev.trust))
    ∧ ((hdr s.dev pgMODE).lock = true →
      Does .modeCmdEnterTest s (TurnedAway s.dev · pgMODE) ∧ Does .modeCmdLeaveTest s (TurnedAway s.dev · pgMODE)
        ∧ Does .modeCmdEnterSafe s (TurnedAway s.dev · pgMODE))

/-- For every state whose supply waits for its start threshold, POWER_ON answers a next state: the supply is on, the
mode and the previous mode are START, the step is RAILS with no step passed, the boot strap and the two master straps
show what at least two of the three reads of the pins found, and device time is 0. The queue stays; capture memory is
cleared (that is the model's choice, log entry 3). (Power, Energy Limits and Thermal Management: Supply; Start-up,
Firmware Images and Trust: The start steps; Host Interface, Master Selection and Queues: Master selection) -/
def Obligations.PowerOnStartsTheEngine : Prop :=
  ∀ (s : State) (b0 b1 b2 : BitVec 2) (m0 m1 m2 : Bool), s.dev.supply = .waiting →
    let two (x y z : Bool) : Bool := (x && y) || (x && z) || (y && z)
    let boot (i : Nat) : Nat := b2n (two (b0.getLsbD i) (b1.getLsbD i) (b2.getLsbD i))
    DoesMem (.powerOn (b0, b1, b2) (m0, m1, m2)) s fun e m =>
      m = [] ∧ e.supply = .on ∧ e.mode = .start ∧ e.prev = .start ∧ e.boot.phase = .step ∧ e.boot.passed = 0
        ∧ rd e pgBOOT BOOT.BOOT_STAT_STEP = 1 ∧ rd e pgMODE MODE.STRAP_BOOT_MODE = boot 0 + 2 * boot 1
        ∧ rdB e pgMODE MODE.STRAP_MASTER_SEL = two m0 m1 m2 ∧ rdB e pgHOST HOST.MASTER_SEL = two m0 m1 m2 ∧ e.devLoop = 0

/-- For every powered state POWER_FAIL_DECLARED answers a next state: the supply waits for its start threshold, no
start attempt is under way, every alarm output is off, the mode is unchanged. Once RAILS has passed, PF_STAT shows the
last step that completed and the sequence's length, the next power-on is one after a power fail, the Granary is parked
if all four steps completed, and if two or more completed with Tally in use and the Granary not parked, the staging is
empty and the clean-stop mark set. Before RAILS has passed no step runs: PF_STAT stays and the next power-on is none
after a power fail. Capture memory stays. (Power, Energy Limits and Thermal Management: Hold-up store and power
failure; Architecture of the Repeater Engine; Connectors, Pins and Electrical Ratings) -/
def Obligations.PowerFailStopsTheEngine : Prop :=
  ∀ (s : State) (steps : Fin 5) (len : BitVec 16) (wrote : Nat) (torn : Bool), Powered s →
    Does (.powerFailDeclared steps len wrote torn) s fun e =>
      e.supply = .waiting ∧ e.boot.phase = .idle ∧ e.alm = [false, false, false, false] ∧ e.mode = s.dev.mode
        ∧ if s.dev.boot.passed = 0 then
            e.boot.startCause = 0 ∧ rd e pgPWR PWR.PF_STAT_LAST_STEP = rd s.dev pgPWR PWR.PF_STAT_LAST_STEP
              ∧ rd e pgPWR PWR.PF_STAT_LAST_LEN = rd s.dev pgPWR PWR.PF_STAT_LAST_LEN
          else
            e.boot.startCause = 2 ∧ rd e pgPWR PWR.PF_STAT_LAST_STEP = steps ∧ rd e pgPWR PWR.PF_STAT_LAST_LEN = len.toNat
              ∧ (steps = 4 → rd e pgGRN GRN.GRN_STAT_PARKED = 1)
              ∧ (2 ≤ steps.val → tallyOut s.dev.rep = false → parked s.dev = false →
                  e.rep.tally.staged = [] ∧ e.rep.tally.cleanMark = true)

/-- For every powered state with the mode page unlocked and no Ovminte reload under way, HOST_RESTART with the key D5H
answers a next state: the mode is START with no row of the mode table, the previous mode is the one it left, the step
is ROM, RST_STAT shows the cause 1 and one restart more up to 65,535, the supply and device time stay, and INT_RAW bit
0 of the mode page is set. With any other key, or during the reload, the command is refused: the mode stays,
MODE_CMD's status shows command 4 as refused, ERROR and INT_RAW bit 1 are set. With the mode page locked it sets its
ERROR alone and no register changes. Capture memory stays. (Register Pages and Global Registers: Mode, straps and
reset; Scope and Reading Conventions: Modes; Start-up, Firmware Images and Trust: The start steps) -/
def Obligations.HostRestartBeginsAnAttempt : Prop :=
  ∀ (s : State) (key : BitVec 8), Powered s →
    (Unlocked s.dev pgMODE → Does (.hostRestart key) s fun e =>
      e.supply = .on ∧ e.devLoop = s.dev.devLoop ∧
        if key = 0xD5#8 ∧ s.dev.rep.flt.away.contains reloading = false then
          e.mode = .start ∧ e.prev = s.dev.mode ∧ e.modeCause = 0 ∧ e.boot.phase = .step
            ∧ rd e pgBOOT BOOT.BOOT_STAT_STEP = 2 ∧ rawBit e pgMODE 0 = true
            ∧ rd e pgMODE MODE.RST_STAT_CAUSE = 1
            ∧ rd e pgMODE MODE.RST_STAT_RESTARTS = min 65535 (rd s.dev pgMODE MODE.RST_STAT_RESTARTS + 1)
        else ModeRefused s.dev e 4 ∧ e.trust = s.dev.trust)
    ∧ ((hdr s.dev pgMODE).lock = true → Does (.hostRestart key) s (TurnedAway s.dev · pgMODE))

/-- While the engine is powered, on every occupied page: INT_MASK_WRITE leaves the mask it was given, PAGE_LOCK leaves
LOCK at 1, and no register outside the headers changes. On a locked page PAGE_COMMIT, PAGE_CANCEL and a
PAGE_ENABLE_WRITE that would change ENABLE set ERROR and change no register. On an unlocked page: PAGE_COMMIT with a
commit pending changes nothing but the alarm outputs; else it leaves one pending on the pages whose commits wait,
applies a PORT page's at once or refuses it with INT_RAW bit 0, leaves none pending on MON_SEQ while the sequence is
stopped or waits and one pending while it runs, and changes nothing else on the other pages. PAGE_CANCEL leaves none
pending where one pends that no boundary has taken or that is still before the cutoff, and sets ERROR otherwise.
PAGE_ENABLE_WRITE of the value ENABLE has changes nothing but the alarm outputs; of 1 it leaves ENABLE at 1, or sets
ERROR where a source that isolates the page is sticky; of 0 it sets ERROR outside TEST, and in TEST leaves ENABLE at
0, changing no register of a page that no source isolates. A page that is not occupied answers each with no change but
the alarm outputs. (Register Pages and Global Registers: The common header; Register Pages and Global Registers:
Commits) -/
def Obligations.HeaderCommandsChangeTheHeader : Prop :=
  ∀ (s : State) (page : Fin 16384), Powered s →
    let kept (e : Dev) : Prop := SameCore s.dev e ∧ OnlyRegs s.dev e []
    (occupied page = false → (∀ mask, Does (.intMaskWrite page mask) s (· = settle s.dev))
      ∧ Does (.pageLock page) s (· = settle s.dev) ∧ ∀ ticks en, Does (.pageCommit page ticks) s (· = settle s.dev)
        ∧ Does (.pageCancel page ticks) s (· = settle s.dev) ∧ Does (.pageEnableWrite page en) s (· = settle s.dev))
    ∧ (occupied page = true →
      (∀ mask, Does (.intMaskWrite page mask) s fun e => (hdr e page).mask = mask ∧ kept e)
      ∧ Does (.pageLock page) s (fun e => (hdr e page).lock = true ∧ kept e)
      ∧ (∀ en, (hdr s.dev page).enable = en → Does (.pageEnableWrite page en) s (· = settle s.dev))
      ∧ ((hdr s.dev page).lock = true →
          (∀ ticks, Does (.pageCommit page ticks) s (TurnedAway s.dev · page) ∧ Does (.pageCancel page ticks) s (TurnedAway s.dev · page))
          ∧ ∀ en, (hdr s.dev page).enable ≠ en → Does (.pageEnableWrite page en) s (TurnedAway s.dev · page))
      ∧ (Unlocked s.dev page → ∀ ticks,
          (Does (.pageCommit page ticks) s fun e =>
            if (hdr s.dev page).pending then e = settle s.dev
            else if waitsKind (kindOf page).1 then (hdr e page).pending = true ∧ kept e
            else if (kindOf page).1 = .monSeq then
              (hdr e page).pending = decide (s.dev.mon.phase ≠ .stopped ∧ s.dev.mon.phase ≠ .wait) ∧ SameCore s.dev e
            else if (kindOf page).1 = .port then
              (hdr e page).pending = false ∧ SameCore s.dev e
                ∧ if portOk s.dev (kindOf page).2 then
                    rd e page PORT.BAND_STAT_ACTIVE = rdSh s.dev page PORT.BAND_EN_EN
                      ∧ (hdr e page).commitCnt = ((hdr s.dev page).commitCnt + 1) % 65536
                  else (hdr e page).error = true ∧ rawBit e page 0 = true ∧ OnlyRegs s.dev e []
            else e = settle s.dev)
          ∧ (Does (.pageCancel page ticks) s fun e =>
            if (hdr s.dev page).pending = true
                ∧ (takenAt s.dev 0 page = false ∨ cutoff s.dev page ≤ ticks ∨ timedKind (kindOf page).1 = false) then
              (hdr e page).pending = false ∧ kept e
            else TurnedAway s.dev e page))
      ∧ (Unlocked s.dev page →
          ((hdr s.dev page).enable = false → Does (.pageEnableWrite page true) s fun e =>
            if (isolators page).any fun i => s.dev.rep.flt.sticky.getLsbD i then TurnedAway s.dev e page
            else (hdr e page).enable = true)
          ∧ ((hdr s.dev page).enable = true → Does (.pageEnableWrite page false) s fun e =>
            if s.dev.mode = .test then (hdr e page).enable = false ∧ (isolators page = [] → kept e)
            else TurnedAway s.dev e page)))

/-- While the engine is powered, on an occupied page: outside TEST and SAFE, or on a locked page, PAGE_SOFT_RESET sets
ERROR and changes no register. Else it answers a next state in which the page's INT_MASK is all ones, COMMIT_CNT is 0,
no commit is pending, and INT_RAW is 0, but for bit 0 of a Weevil cluster's page where the cluster was isolated: the
reset re-admits it. On the page of a DC feed every bit of every register that a soft reset does not keep is at its
reset value. A page that is not occupied answers with no change but the alarm outputs. (Register Pages and Global
Registers: The common header) -/
def Obligations.SoftResetRestoresThePage : Prop :=
  ∀ s : State, Powered s →
    (∀ page : Fin 16384, Does (.pageSoftReset page) s fun e =>
      if occupied page = false then e = settle s.dev
      else if (s.dev.mode = .test ∨ s.dev.mode = .safe) ∧ (hdr s.dev page).lock = false then
        (hdr e page).raw = (if (kindOf page).1 = .wvl ∧ rdB s.dev page WVL.WVL_STAT_ISOLATED = true then 1 else 0)
          ∧ (hdr e page).mask = 0xFFFFFFFF ∧ (hdr e page).commitCnt = 0 ∧ (hdr e page).pending = false
      else TurnedAway s.dev e page)
    ∧ ∀ p : Fin 4, s.dev.mode = .test ∨ s.dev.mode = .safe → Unlocked s.dev (pgDCF p) →
      Does (.pageSoftReset ⟨pgDCF p, by unfold pgDCF; omega⟩) s fun e =>
        ∀ off, off < 4096 → reg e (pgDCF p) off &&& ~~~ BitVec.ofNat 32 (softKeep (pgDCF p) off)
          = regReset s.dev.part (rkey (pgDCF p) off) &&& ~~~ BitVec.ofNat 32 (softKeep (pgDCF p) off)

/-- While the engine is powered, for every register of an occupied page whose registers a write only stores (directly
or behind its window) and every value: with the value's assigned bits within the register's bounds and the page
unlocked, REG_WRITE answers a next state in which the register's RW bits take the value's bits, its W1C bits written 1
are 0, its other bits stay, its shadow's RWS bits take the value's bits, and no other register, mode, start-up or
trust state changes; bits that are not assigned set the page's ERROR beside it. Out of bounds, on an unlocked page,
the write sets ERROR and changes no register. On a locked page the register's RW and shadow's RWS bits stay, and a
value that would change one sets ERROR. An offset with no register takes 0 with no change but the alarm outputs and
any other value with ERROR. A write of INT_MASK through REG_WRITE answers what INT_MASK_WRITE answers; a write to a
page that is not occupied changes nothing but the alarm outputs. (Register Pages and Global Registers: The page map;
Register Pages and Global Registers: The common header; Scope and Reading Conventions: Registers) -/
def Obligations.RegisterWriteStoresItsBits : Prop :=
  ∀ s : State, Powered s →
    (∀ (page : Fin 16384) (word : Fin 1024) (v : Word), occupied page = true → 16 ≤ word.val →
      plainKind (kindOf (windowPage s.dev page (4 * word))).1 = true →
      Does (.regWrite page word v) s fun e =>
        let p := windowPage s.dev page (4 * word)
        let was := reg s.dev p (4 * word)
        match rowAt p (4 * word) with
        | none => if v = 0 then e = settle s.dev else TurnedAway s.dev e page
        | some r =>
          if (hdr s.dev page).lock then
            reg e p (4 * word) &&& BitVec.ofNat 32 r.rw = was &&& BitVec.ofNat 32 r.rw
              ∧ regSh e p (4 * word) &&& BitVec.ofNat 32 r.rws = regSh s.dev p (4 * word) &&& BitVec.ofNat 32 r.rws
              ∧ (v &&& BitVec.ofNat 32 r.rws ≠ regSh s.dev p (4 * word) &&& BitVec.ofNat 32 r.rws → (hdr e page).error = true)
              ∧ OnlyRegs s.dev e [(p, 4 * word)] ∧ SameCore s.dev e
          else if badWrite s.dev p (4 * word) (v.toNat &&& r.known) then TurnedAway s.dev e page
          else
            reg e p (4 * word)
                = ((was &&& ~~~ BitVec.ofNat 32 r.rw) ||| (v &&& BitVec.ofNat 32 r.rw)) &&& ~~~ (v &&& BitVec.ofNat 32 r.w1c)
              ∧ regSh e p (4 * word) = (regSh s.dev p (4 * word) &&& ~~~ BitVec.ofNat 32 r.rws) ||| (v &&& BitVec.ofNat 32 r.rws)
              ∧ (v.toNat &&& r.known ≠ v.toNat → (hdr e page).error = true)
              ∧ OnlyRegs s.dev e [(p, 4 * word)] ∧ SameCore s.dev e)
    ∧ (∀ (page : Fin 16384) (v : Word), occupied page = true →
        exec (.regWrite page 5 v) s = exec (.intMaskWrite page v) s)
    ∧ ∀ (page : Fin 16384) (word : Fin 1024) (v : Word), occupied page = false →
        Does (.regWrite page word v) s (· = settle s.dev)

/-- While the engine is powered: FAULT_FORCE_WRITE in TEST of assigned bits of a page makes their sources sticky, else
it sets the page's ERROR; the real events of its cycle become sticky either way, and none clears. With no real event,
and reactions to forced events off, exactly the forced sources join and no register changes. FAULT_DETECT makes every
implemented source it names sticky, a FATAL one silences RF, and a lone event counts in the source's EVENTS.
FAULT_CAUSE_END clears the source's LIVE alone, a clock's lock back with INT_RAW bit 0. FAULT_STICKY_CLEAR clears the
bits written except of LIVE sources, for which it sets ERROR; RF silence ends once no FATAL source is sticky, with
INT_RAW bit 5. WEEVIL_SUBSTITUTE puts an isolated cluster's workload on cluster 31 once, with SUBST, SUBST_FOR and
INT_RAW bit 1; where that is spent or isolated, and cluster 31 does not carry it already, the workload's remaining
clusters share it; cluster 31 isolated itself hands on in the same way what it carried; for a sound cluster nothing
changes. OVMINTE_RUNTIME_RELOAD ends the runtime's reload. None of the last five changes the part, device time, mode
or trust. (Fault Collection and Reaction: Forcing; Fault Collection and Reaction: Reactions; Fault Collection and
Reaction: Sources and classes; Architecture of the Repeater Engine) -/
def Obligations.FaultsAreForcedEndedAndCleared : Prop :=
  ∀ s : State, Powered s →
    let f := s.dev.rep.flt
    let was (j : Nat) : Bool := f.sticky.getLsbD j
    let now (e : Dev) (j : Nat) : Bool := e.rep.flt.sticky.getLsbD j
    let shares (e : Dev) (j : Nat) : Prop :=
      ∀ i : Fin 31, i.val ∈ remaining s.dev (workOf j) → rd e (pgWVL i) WVL.WVL_STAT_SHARED = 1 ∧ rawBit e (pgWVL i) 1 = true
    let stays (e : Dev) : Prop :=
      e.part = s.dev.part ∧ e.devLoop = s.dev.devLoop ∧ e.supply = .on ∧ e.mode = s.dev.mode ∧ e.trust = s.dev.trust
    (∀ (page : Fin 16384) (bits : Word) (cycle : Fin 37500) (real : List (Fin 256)),
      Does (.faultForceWrite page bits cycle real) s fun e =>
        let ok := s.dev.mode = .test ∧ bits.toNat &&& forceAssigned page = bits.toNat
        (¬ ok → (hdr e page).error = true) ∧ (ok → ∀ j, j ∈ forceSources page bits.toNat → now e j = true)
          ∧ (∀ j : Fin 256, was j = true → now e j = true)
          ∧ (∀ j : Fin 256, j ∈ real → (srcInfo j).isSome = true → now e j = true)
          ∧ (real = [] → rd s.dev pgFLT FLT.FLT_CFG_FORCE_REACT = 0 →
              (∀ j : Fin 256, now e j = (was j || decide (ok ∧ j.val ∈ forceSources page bits.toNat)))
                ∧ (¬ ok → e.rep.flt = f) ∧ SameCore s.dev e ∧ OnlyRegs s.dev e []))
    ∧ (∀ (cycle : Fin 37500) (sources : List (Fin 256)), Does (.faultDetect cycle sources) s fun e =>
        (∀ j : Fin 256, j ∈ sources → (srcInfo j).isSome = true → now e j = true)
          ∧ (∀ j : Fin 256, was j = true → now e j = true)
          ∧ (∀ j : Fin 256, j ∈ sources → (srcInfo j).isSome = true → srcClass j = 2 → e.rep.flt.silent = true)
          ∧ (∀ j : Fin 256, sources = [j] → (srcInfo j).isSome = true →
              (tget (fun _ => srcCnt0) e.rep.flt.cnt j).events
                = min 65535 ((tget (fun _ => srcCnt0) f.cnt j).events + 1)))
    ∧ (∀ source : Fin 256, Does (.faultCauseEnd source) s fun e =>
        (∀ j, j < 256 → e.rep.flt.live.getLsbD j = (f.live.getLsbD j && decide (j ≠ source.val))) ∧ e.rep.flt.sticky = f.sticky
          ∧ (source.val < 5 → rd e pgCLK ⟨0x40, source.val, 1⟩ = 1 ∧ rawBit e pgCLK 0 = true)
          ∧ (44 ≤ source.val → e.rep.hdr = s.dev.rep.hdr ∧ OnlyRegs s.dev e [])
          ∧ stays e)
    ∧ (∀ (g : Fin 8) (bits : Word), Does (.faultStickyClear g bits) s fun e =>
        (∀ j, j < 256 → now e j = (was j && ! (decide (j / 32 = g.val) && bits.getLsbD (j % 32) && ! f.live.getLsbD j)))
          ∧ e.rep.flt.live = f.live
          ∧ (∀ b : Fin 32, bits.getLsbD b.val = true → was (32 * g.val + b.val) = true → f.live.getLsbD (32 * g.val + b.val) = true →
              (hdr e pgFLT).error = true)
          ∧ (f.silent = true → e.rep.flt.silent = stickyOf e.rep 2 ∧ (stickyOf e.rep 2 = false → rawBit e pgFLT 5 = true))
          ∧ (f.silent = false → OnlyRegs s.dev e [])
          ∧ stays e)
    ∧ (∀ k : Fin 32, Does (.weevilSubstitute k) s fun e =>
        (if isolated s.dev k = false then e.rep = s.dev.rep ∧ OnlyRegs s.dev e []
          else if k.val = 31 then
            if rd s.dev (pgWVL 31) WVL.WVL_STAT_SUBST = 1 then
              rd e (pgWVL 31) WVL.WVL_STAT_SUBST = 0 ∧ shares e (rd s.dev (pgWVL 31) WVL.WVL_SUBST_FOR)
            else e.rep = s.dev.rep ∧ OnlyRegs s.dev e []
          else if s.dev.boot.spent = false ∧ isolated s.dev 31 = false then
            rd e (pgWVL 31) WVL.WVL_STAT_SUBST = 1 ∧ rd e (pgWVL 31) WVL.WVL_SUBST_FOR = k ∧ rawBit e (pgWVL 31) 1 = true
              ∧ e.boot.spent = true
          else if substFor s.dev = some k.val then e.rep = s.dev.rep ∧ OnlyRegs s.dev e []
          else shares e k)
          ∧ stays e)
    ∧ (Does .ovminteRuntimeReload s fun e =>
        e.rep.flt.away = f.away.filter (· ≠ reloading) ∧ e.rep.flt.sticky = f.sticky ∧ OnlyRegs s.dev e [] ∧ stays e)

/-- While the engine is powered, an event of an implemented source, registered alone by FAULT_DETECT (real) or, in
TEST, by FAULT_FORCE_WRITE of its bit (forced): with VALID 0 it fills the latch with VALID, SOURCE and CLASS, REAL and
FORCED, DEV_LOOP_LO as STAMP and the collector cycle as CYCLE; with VALID 1 it leaves those, sets OVERFLOW and
increments OVF_CNT up to 65,535. INT_RAW bit 1 is set only where OVERFLOW changes from 0 to 1. FIRST_FAULT_CLEAR
clears VALID, OVERFLOW and OVF_CNT; an event in the same cycle fills the latch afresh. (R409) -/
def Obligations.TheFirstFaultIsLatched : Prop :=
  ∀ s : State, Powered s →
    let f := s.dev.rep.flt.first
    let after (open' : Bool) (e : Dev) (src cycle : Nat) (real forced : Bool) : Prop :=
      let g := e.rep.flt.first
      g.valid = true
        ∧ (if open' then g.source = src ∧ g.cls = srcClass src ∧ g.real = real ∧ g.forced = forced
              ∧ g.stamp = s.dev.devLoop % 4294967296 ∧ g.cycle = cycle
            else g.overflow = true ∧ g.ovfCnt = min 65535 (f.ovfCnt + 1) ∧ g.source = f.source ∧ g.cls = f.cls
              ∧ g.real = f.real ∧ g.forced = f.forced ∧ g.stamp = f.stamp ∧ g.cycle = f.cycle)
        ∧ rawBit e pgFLT 1 = (rawBit s.dev pgFLT 1 || (! open' && ! f.overflow))
    (∀ (cycle : Fin 37500) (src : Fin 256), (srcInfo src).isSome = true → Does (.faultDetect cycle [src]) s fun e =>
      after (! f.valid) e src cycle true false)
    ∧ (∀ (page : Fin 16384) (bits : Word) (cycle : Fin 37500) (src : Nat), s.dev.mode = .test →
        bits.toNat &&& forceAssigned page = bits.toNat → forceSources page bits.toNat = [src] →
        Does (.faultForceWrite page bits cycle []) s fun e => after (! f.valid) e src cycle false true)
    ∧ (∀ cycle : Fin 37500, Does (.firstFaultClear cycle []) s fun e =>
        e.rep.flt.first = { f with valid := false, overflow := false, ovfCnt := 0 } ∧ e.rep.hdr = s.dev.rep.hdr
          ∧ OnlyRegs s.dev e [] ∧ SameCore s.dev e)
    ∧ (∀ (cycle : Fin 37500) (src : Fin 256), (srcInfo src).isSome = true → Does (.firstFaultClear cycle [src]) s fun e =>
        after true e src cycle true false ∧ e.rep.flt.first.overflow = false ∧ e.rep.flt.first.ovfCnt = 0)

/-- While the engine is powered, LOOP_LATCH with any measured inputs answers a next state in which DEV_LOOP is one
more, the period's evaluation and write are still to come, the running segments are the same, and the context of every
running segment holds inputs latched in this period and no gain that waits to be written. The supply stays, and so
does capture memory where no scheduled action has been deferred to this latch. (The Gain Control Engine: The fixed
timetable) -/
def Obligations.LoopLatchBeginsThePeriod : Prop :=
  ∀ (s : State) (x : LatchIn), Powered s → DoesMem (.loopLatch x) s fun e m =>
    e.devLoop = s.dev.devLoop + 1 ∧ e.supply = .on ∧ e.act = s.dev.act ∧ e.written = false ∧ e.evaluated = false
      ∧ (s.dev.sched.deferred = [] → m = s.cap)
      ∧ ∀ n ∈ s.dev.act, (ctxRt e n).cur ≠ none ∧ (ctxRt e n).due = false

/-- While the engine is powered and the period is neither evaluated nor written, LOOP_EVALUATE answers a next state in
which the period is evaluated and not written, the context of every running segment that holds latched inputs is the
control law's result for them (with its gain due to be written), every other context is unchanged, and the mode,
device time, start-up and trust stay. In a period already evaluated or written it changes nothing but the alarm
outputs. (The Gain Control Engine: The fixed timetable; The Gain Control Engine: The control law; The Gain Control
Engine: Holds) -/
def Obligations.ContextsAreEvaluatedByTheLaw : Prop :=
  ∀ s : State, Powered s →
    (s.dev.written = false → s.dev.evaluated = false → Does .loopEvaluate s fun e =>
      e.evaluated = true ∧ e.written = false ∧ e.act = s.dev.act ∧ e.devLoop = s.dev.devLoop ∧ e.mode = s.dev.mode
        ∧ e.boot = s.dev.boot ∧ e.trust = s.dev.trust
        ∧ (∀ n ∈ s.dev.act, ∀ x, (ctxRt s.dev n).cur = some x →
            ctxRt e n = evalCtx x (ctxRt s.dev n) ∧ (ctxRt e n).cur = none ∧ (ctxRt e n).due = true)
        ∧ ∀ n, n ∉ s.dev.act ∨ (ctxRt s.dev n).cur = none → ctxRt e n = ctxRt s.dev n)
    ∧ ((s.dev.written = true ∨ s.dev.evaluated = true) → Does .loopEvaluate s fun e => e = settle s.dev)

/-- For every context and every latched input: with a latched cap of 0 dB or more the evaluation's gain is at most the
cap, in AUTO, in MANUAL, through every transfer and in a hold, however large the step; with a latched cap below 0 dB
the gain is 0 dB and the period is held with CAP_MUTE. A held period leaves the integrator, the ramped set-point, the
region, the class, the mode and the following-error count as they were. (The Gain Control Engine: The control law; The
Gain Control Engine: Caps moving under the loop; The Gain Control Engine: Holds; The Gain Control Engine: Manual and
automatic) -/
def Obligations.WrittenGainsObeyTheCap : Prop :=
  ∀ (x : Latched) (k : Ctx),
    (0 ≤ (capOf x.srcs).1 → (evalCtx x k).gain ≤ (capOf x.srcs).1)
    ∧ ((capOf x.srcs).1 < 0 → (evalCtx x k).gain = 0 ∧ (evalCtx x k).res.hold.testBit 6 = true ∧ (evalCtx x k).res.run = false)
    ∧ (evalCtx x k).res.gain = (evalCtx x k).gain ∧ (evalCtx x k).res.cap = (capOf x.srcs).1
    ∧ ((evalCtx x k).res.run = false → (evalCtx x k).integ = k.integ ∧ (evalCtx x k).spr = k.spr ∧ (evalCtx x k).region = k.region
        ∧ (evalCtx x k).tight = k.tight ∧ (evalCtx x k).auto = k.auto ∧ (evalCtx x k).feCount = k.feCount)

/-- While the engine is powered, for segments numbered below 1,024: in a period that is evaluated and not yet written,
LOOP_GAIN_WRITE answers a next state in which the period is written; the GAIN_NOW and LOOP_STAT registers of every
running segment whose context has a gain due hold that gain, the latched cap and the status, and the gain is due no
more; the LOOP registers of a running segment with no gain due are unchanged. In any other period the command changes
nothing but the alarm outputs. (The Gain Control Engine: The fixed timetable; The Gain Control Engine: LOOP registers)
-/
def Obligations.GainsAreWrittenTogether : Prop :=
  ∀ s : State, Powered s → (∀ n ∈ s.dev.act, n < 1024) →
    (s.dev.evaluated = true → s.dev.written = false → Does .loopGainWrite s fun e =>
      e.written = true ∧ e.evaluated = true ∧ e.act = s.dev.act ∧ e.devLoop = s.dev.devLoop ∧ e.supply = .on
        ∧ ∀ n ∈ s.dev.act, (ctxRt e n).due = false ∧ (ctxRt e n).gain = (ctxRt s.dev n).gain
          ∧ ((ctxRt s.dev n).due = true →
              reg e (pgLOOP n) 0x74 = BitVec.ofNat 32 (u16 (ctxRt s.dev n).res.gain * 65536 + u16 (ctxRt s.dev n).res.cap)
              ∧ reg e (pgLOOP n) 0x70 = BitVec.ofNat 32 (loopStat (ctxRt s.dev n)))
          ∧ ((ctxRt s.dev n).due = false → ∀ o, o < 4096 → reg e (pgLOOP n) o = reg s.dev (pgLOOP n) o))
    ∧ (s.dev.evaluated = false ∨ s.dev.written = true → Does .loopGainWrite s fun e => e = settle s.dev)

/-- While the engine is powered: SEG_SYNC_RESET notes the reset for the next boundary on an active segment and does
nothing on an inactive one; COEF_SEAL clears BUILDING; on a locked page each sets ERROR and changes no register.
SHADOW_COPY_DONE of a copy in progress clears COPYING, the shadow of every table word holding the active word but
where it was written meanwhile. INVALID_RUN_END ends a run: its cause and samples left read 0 and INT_RAW bit 3 is
set; with no run, or while the segment deactivates, it changes nothing but the alarm outputs. TONE_WINDOW_END of an
active segment shows RATIO, VALID and the next SEQ, or clears VALID and counts the discard where the window is
discarded, held a sample of an invalid run, or was gated; below the tone threshold no other page changes.
DEACTIVATION_RAMP_DONE of a deactivating segment removes it from the running ones and ends its run, and of any other
leaves them. Each leaves the mode, supply, start-up and trust. (The Segment Path: Changes, banks and invalid samples;
The Segment Path: Subtraction, gain and detectors; The Segment Path: Shadow and active banks) -/
def Obligations.SegmentPathEventsEndWhatTheyName : Prop :=
  ∀ (s : State) (n : Fin 1024), Powered s →
    (Does (.segSyncReset n) s fun e =>
      if (hdr s.dev (pgSEG n)).lock then TurnedAway s.dev e (pgSEG n)
      else (if isActive s.dev n then (segRt e n).syncReq = true else e = settle s.dev) ∧ SameCore s.dev e ∧ OnlyRegs s.dev e [])
    ∧ (∀ loop, let page := if loop then pgLOOP n else pgSEG n
        Does (.coefSeal n loop) s fun e =>
          if (hdr s.dev page).lock then TurnedAway s.dev e page
          else (if loop then rd e (pgLOOP n) LOOP.COEF_STAT_BUILDING = 0 else rd e (pgSEG n) SEG.COEF_STAT_BUILDING = 0)
            ∧ SameCore s.dev e ∧ OnlyRegs s.dev e [if loop then (pgLOOP n, 0xA4) else (pgSEG n, 0x5C)])
    ∧ (∀ loop, let page := if loop then pgLOOP n else pgSEG n
        let busy := if loop then rdB s.dev page LOOP.COEF_STAT_COPYING else rdB s.dev page SEG.COEF_STAT_COPYING
        let kept (o : Nat) : Bool := if loop then (segRt s.dev n).keepSets.contains o else (segRt s.dev n).keepWords.contains o
        Does (.shadowCopyDone n loop) s fun e =>
          (if loop then rd e page LOOP.COEF_STAT_COPYING = 0 else rd e page SEG.COEF_STAT_COPYING = 0)
            ∧ (∀ o : Fin 4096, o.val ∈ (if loop then loopSets else segCoef ++ segMask ++ segCanc) → busy = true →
                regSh e page o &&& rwsMask page o
                  = (if kept o then regSh s.dev page o else reg s.dev page o) &&& rwsMask page o)
            ∧ SameCore s.dev e ∧ OnlyRegs s.dev e [if loop then (pgLOOP n, 0xA4) else (pgSEG n, 0x5C)])
    ∧ (Does (.invalidRunEnd n) s fun e =>
        if (segRt s.dev n).inv = true ∧ (segRt s.dev n).deact = false then
          (segRt e n).inv = false ∧ rd e (pgSEG n) SEG.SEG_STAT_INV_CAUSE = 0 ∧ rd e (pgSEG n) SEG.SEG_STAT_INV_LEFT = 0
            ∧ rawBit e (pgSEG n) 3 = true ∧ SameCore s.dev e ∧ OnlyPages s.dev e [pgSEG n]
        else e = settle s.dev)
    ∧ (∀ ratio discard, Does (.toneWindowEnd n ratio discard) s fun e =>
        if isActive s.dev n then
          let off := discard = true ∨ (segRt s.dev n).toneBad = true ∨ (segRt s.dev n).inv = true ∨ isGated s.dev n = true
          (if off then rdB e (pgSEG n) SEG.TONE_RES_VALID = false
              ∧ rd e (pgSEG n) SEG.INV_CNT_TONE_DISCARD = min 65535 (rd s.dev (pgSEG n) SEG.INV_CNT_TONE_DISCARD + 1)
            else rdB e (pgSEG n) SEG.TONE_RES_VALID = true ∧ rdS e (pgSEG n) SEG.TONE_RES_RATIO = clamp16 ratio
              ∧ rd e (pgSEG n) SEG.TONE_RES_SEQ = (rd s.dev (pgSEG n) SEG.TONE_RES_SEQ + 1) % 32768)
            ∧ (off ∨ ratio < rdS s.dev pgNP NP.NP_TONE_TONE_TH → SameCore s.dev e ∧ OnlyPages s.dev e [pgSEG n])
            ∧ e.mode = s.dev.mode ∧ e.supply = .on ∧ e.boot = s.dev.boot ∧ e.trust = s.dev.trust
        else e = settle s.dev)
    ∧ (Does (.deactivationRampDone n) s fun e =>
        (∀ m, m ∈ e.act ↔ m ∈ s.dev.act ∧ (m ≠ n ∨ (segRt s.dev n).deact = false))
          ∧ ((segRt s.dev n).deact = true → (segRt e n).deact = false ∧ (segRt e n).inv = false)
          ∧ e.mode = s.dev.mode ∧ e.supply = .on ∧ e.boot = s.dev.boot ∧ e.trust = s.dev.trust)

/-- While the engine is powered, BUF_DATA_READ answers a next state in which the newest output is the value of
BUF_DATA, which with a buffer selected (0 to 7 a trace channel, 8 the response buffer) and an index inside it is the
entry at BUF_IDX of that buffer as it stood, whatever the recording's state; and BUF_IDX is one more, wrapping at
4,096 for a trace channel and at 1,024 for the response buffer. No other register, no header and nothing of the mode,
start-up or trust changes. (R179) -/
def Obligations.ReadingABufferReturnsTheEntry : Prop :=
  ∀ s : State, Powered s → Does .bufDataRead s fun e =>
    let b := rd s.dev pgLGLB LGLB.BUF_SEL_BUF
    let i := rd s.dev pgLGLB LGLB.BUF_IDX_IDX
    e.rep.out = .readWord pgLGLB 0x80 (peek s.dev pgLGLB 0x80) :: s.dev.rep.out
      ∧ (b < 8 → peek s.dev pgLGLB 0x80 = tget (fun _ => 0) s.dev.trace.bufs (4096 * b + i))
      ∧ (b = 8 → i < 1024 → peek s.dev pgLGLB 0x80 = tget (fun _ => 0) s.dev.trace.resp i)
      ∧ rd e pgLGLB LGLB.BUF_IDX_IDX = (i + 1) % (if b = 8 then 1024 else 4096)
      ∧ e.trace = s.dev.trace ∧ e.rep.hdr = s.dev.rep.hdr ∧ OnlyRegs s.dev e [(pgLGLB, 0x7C)] ∧ SameCore s.dev e

/-- While the engine is powered and LOOP_GLB is not locked: DITH_START with an amplitude of 1 to 10 runs the dither
(state 1, no entries, its context, amplitude and half period) where the mode is SERVICE, TEST or RECOVERY, none runs
and the context's segment is active in AUTO, and otherwise, or with any other amplitude, sets ERROR and leaves the
dither; DITH_STOP ends a running dither as ABORTED with INT_RAW bit 4; TRACE_ARM with a trigger source arms an empty
trace outside SERVICE and SAFE, with source 0 it starts it RUNNING, for 4,096 - PRE entries, with INT_RAW bit 0, and
in SERVICE and SAFE it sets ERROR; TRACE_FORCE takes an ARMED trace to RUNNING for 4,096 - PRE further entries. With
LOOP_GLB locked each sets ERROR and changes no register. Registers of other pages, the mode, start-up and trust stay.
(The Gain Control Engine: In-service dither; The Gain Control Engine: Trace buffers; The Gain Control Engine: LOOP_GLB
registers) -/
def Obligations.DitherAndTraceStartAndStop : Prop :=
  ∀ s : State, Powered s →
    let locked := (hdr s.dev pgLGLB).lock
    (∀ (amp : BitVec 4) (c : Fin 1024) (half : BitVec 8), Does (.dithStart amp c half) s fun e =>
      if locked then TurnedAway s.dev e pgLGLB
      else
        (if (1 ≤ amp.toNat ∧ amp.toNat ≤ 10) ∧ (s.dev.mode = .service ∨ s.dev.mode = .test ∨ s.dev.mode = .recovery)
              ∧ ¬ dithRunning s.dev ∧ isActive s.dev c ∧ (ctxRt s.dev c).auto then
            dithRunning e = true ∧ rd e pgLGLB LGLB.DITH_STAT_ENTRIES = 0 ∧ e.trace.ctx = c ∧ e.trace.amp = amp.toNat
              ∧ e.trace.half = half.toNat ∧ e.trace.ran = 0
          else (hdr e pgLGLB).error = true ∧ e.trace = s.dev.trace ∧ dithRunning e = dithRunning s.dev)
        ∧ SameCore s.dev e ∧ OnlyPages s.dev e [pgLGLB])
    ∧ Does .dithStop s (fun e =>
        if locked then TurnedAway s.dev e pgLGLB
        else
          (if dithRunning s.dev then rd e pgLGLB LGLB.DITH_STAT_STATE = 3 ∧ e.trace.on = false ∧ rawBit e pgLGLB 4 = true
            else e = settle s.dev) ∧ SameCore s.dev e ∧ OnlyPages s.dev e [pgLGLB])
    ∧ (∀ (pre : BitVec 12) (slot : Fin 4) (src : BitVec 3), Does (.traceArm pre slot src) s fun e =>
        if locked then TurnedAway s.dev e pgLGLB
        else
          (if s.dev.mode = .service ∨ s.dev.mode = .safe then
              (hdr e pgLGLB).error = true ∧ traceState e = traceState s.dev ∧ e.trace = s.dev.trace
            else
              (if src = 0 then traceState e = 2 ∧ e.trace.left = 4096 - pre.toNat ∧ rawBit e pgLGLB 0 = true
                else traceState e = 1)
              ∧ e.trace.total = 0 ∧ e.trace.pos = 0 ∧ rd e pgLGLB LGLB.TRACE_CTRL_PRE = pre.toNat
              ∧ rd e pgLGLB LGLB.TRACE_CTRL_TRIG_SLOT = slot ∧ rd e pgLGLB LGLB.TRACE_CTRL_TRIG_SRC = src.toNat)
          ∧ SameCore s.dev e ∧ OnlyPages s.dev e [pgLGLB])
    ∧ Does .traceForce s (fun e =>
        if locked then TurnedAway s.dev e pgLGLB
        else
          (if traceState s.dev = 1 then
              traceState e = 2 ∧ e.trace.left = 4096 - rd s.dev pgLGLB LGLB.TRACE_CTRL_PRE ∧ rawBit e pgLGLB 0 = true
            else e = settle s.dev) ∧ SameCore s.dev e ∧ OnlyPages s.dev e [pgLGLB])

/-- While the engine is powered: AIR_LOCK in SEARCH, AIR_RELOCK in HOLDOVER on the same cell or in LOST, each of a
cell and SNR that permit a lock, and AIR_TIMING_JUMP in LOCKED, slew an error of at most 4 air ticks (on the same
cell; at a lock only after a source change) and take any other as a step, which LAST_STEP, STEP_CNT and INT_RAW bit 2
record, whatever the step passes. Where the step crosses no boundary forwards and skips no action the clock is then
LOCKED, with the cell, EVER_LOCKED and HOLD_LEFT 0 shown at a lock. In any other state, or without a permitted cell,
each changes nothing but the alarm outputs. AIR_HOLDOVER_ENTER takes LOCKED to HOLDOVER with 64 frames left;
AIR_LOST_ENTER takes HOLDOVER with none left to LOST with INT_RAW bit 4 and the mute of the clock's TDD segments;
TDD_MUTE_LIFT lifts that mute for a segment after 8 LOCKED frames; in other states they change nothing but the alarm
outputs. None changes the mode, start-up or trust, and the last three no loop context and no capture memory. (Air
Clocks and the Scheduler: Clock states; Air Clocks and the Scheduler: Holdover and loss; Air Clocks and the Scheduler:
A timing step) -/
def Obligations.ClockStatesFollowTheCarrier : Prop :=
  ∀ (s : State) (c : Fin 16), Powered s →
    let st := ckState s.dev c
    let stays (e : Dev) : Prop := e.mode = s.dev.mode ∧ e.boot = s.dev.boot ∧ e.trust = s.dev.trust ∧ e.supply = .on
    let took (x : StepInput) (e : Dev) : Prop :=
      rdS e (pgAIR c) AIR.STEP_INFO_LAST_STEP = clamp16 x.e ∧ rawBit e (pgAIR c) 2 = true
        ∧ rd e (pgAIR c) AIR.STEP_INFO_STEP_CNT = min 65535 (rd s.dev (pgAIR c) AIR.STEP_INFO_STEP_CNT + 1)
    let slewed (x : StepInput) (e : Dev) : Prop :=
      (airRt e c).slew = x.e ∧ rd e (pgAIR c) AIR.STEP_INFO_STEP_CNT = rd s.dev (pgAIR c) AIR.STEP_INFO_STEP_CNT ∧ ckState e c = ckLOCKED
    let on (cell : Nat) (e : Dev) : Prop :=
      ckState e c = ckLOCKED ∧ rd e (pgAIR c) AIR.CLK_STAT_CELL_FOUND = cell ∧ rd e (pgAIR c) AIR.CLK_STAT_EVER_LOCKED = 1
        ∧ rd e (pgAIR c) AIR.CLK_STAT_HOLD_LEFT = 0
    let same (cell : Nat) : Prop := rd s.dev (pgAIR c) AIR.CLK_STAT_CELL_FOUND = cell
    (∀ (cell : Fin 1024) (snr : Int) (x : StepInput),
      (DoesMem (.airLock c cell snr x) s fun e m =>
        if st = ckSEARCH ∧ mayLock s.dev c cell snr = true then
          (if (airRt s.dev c).srcChange = true ∧ same cell ∧ x.e.natAbs ≤ 4 then slewed x e ∧ on cell e ∧ SameCore s.dev e ∧ m = s.cap
            else took x e ∧ (QuietStep x → on cell e ∧ SameCore s.dev e ∧ m = s.cap)) ∧ stays e
        else e = settle s.dev ∧ m = s.cap)
      ∧ DoesMem (.airRelock c cell snr x) s fun e m =>
        if ((st = ckHOLDOVER ∧ same cell) ∨ st = ckLOST) ∧ mayLock s.dev c cell snr = true then
          (if same cell ∧ x.e.natAbs ≤ 4 then slewed x e ∧ on cell e ∧ SameCore s.dev e ∧ m = s.cap
            else took x e ∧ (QuietStep x → on cell e ∧ SameCore s.dev e ∧ m = s.cap)) ∧ stays e
        else e = settle s.dev ∧ m = s.cap)
    ∧ (∀ x : StepInput, DoesMem (.airTimingJump c x) s fun e m =>
        if st = ckLOCKED then
          (if x.e.natAbs ≤ 4 then slewed x e ∧ SameCore s.dev e ∧ m = s.cap
            else took x e ∧ (QuietStep x → ckState e c = ckLOCKED ∧ SameCore s.dev e ∧ m = s.cap)) ∧ stays e
        else e = settle s.dev ∧ m = s.cap)
    ∧ (Does (.airHoldoverEnter c) s fun e =>
        if st = ckLOCKED then
          ckState e c = ckHOLDOVER ∧ rd e (pgAIR c) AIR.CLK_STAT_HOLD_LEFT = 64 ∧ rawBit e (pgAIR c) 1 = true ∧ SameCore s.dev e
        else e = settle s.dev)
    ∧ (Does (.airLostEnter c) s fun e =>
        if st = ckHOLDOVER ∧ rd s.dev (pgAIR c) AIR.CLK_STAT_HOLD_LEFT = 0 then
          ckState e c = ckLOST ∧ rawBit e (pgAIR c) 4 = true ∧ (airRt e c).lostMode = true ∧ SameCore s.dev e
        else e = settle s.dev)
    ∧ (∀ n : Fin 1024, Does (.tddMuteLift c n) s fun e =>
        if (airRt s.dev c).lostMode = true ∧ st = ckLOCKED ∧ 8 ≤ (airRt s.dev c).lockedRun ∧ (tddSegs s.dev c).contains n = true then
          ((airRt e c).lostMode = false ∨ (airRt e c).lifted.contains n.val = true) ∧ (condOf e 7 n).present = false ∧ SameCore s.dev e
        else e = settle s.dev)

/-- While the engine is powered: REF_SOURCE_CHANGE stores the frequency offset and makes the first available reference
the source in use; J13_PRESENCE_CHANGE stores whether J13 is valid and does the same, and where the source changes
INT_RAW bit 6 of page AIR 0 is set; only REF_STAT changes. FRAME_NUMBER_READ of a LOCKED clock holds the number for
the next boundary: SFN modulo 1024, and for GSM the number of the 10 ms frame within its hyperframe, modulo 1024,
which GSM_FN counts from; no register changes; of a clock not LOCKED it changes nothing but the alarm outputs.
FRAME_NOW_READ of any clock at any tick answers a next state in which the newest output is the value of FRAME_NOW,
TICK_LATCH holds the tick, and no other register but GSM_FN and no header changes. DEV_LOOP_READ answers one in which
the newest output is the low word of DEV_LOOP, DEV_LOOP_HI holds the high word, and no stored register changes. (Air
Clocks and the Scheduler: Counters; Air Clocks and the Scheduler: Device time, the loop grid and references) -/
def Obligations.ReferencesAndFrameNumbersAreTaken : Prop :=
  ∀ s : State, Powered s →
    (∀ offs : Int, Does (.refSourceChange offs) s fun e =>
      rdS e (pgAIR 0) AIR.REF_STAT_FREQ_OFFS = clamp16 offs ∧ rd e (pgAIR 0) AIR.REF_STAT_SOURCE = refAvail s.dev
        ∧ (rd s.dev (pgAIR 0) AIR.REF_STAT_SOURCE ≠ refAvail s.dev → rawBit e (pgAIR 0) 6 = true)
        ∧ OnlyRegs s.dev e [(pgAIR 0, 0xD4)] ∧ SameCore s.dev e)
    ∧ (∀ v : Bool, Does (.j13PresenceChange v) s fun e =>
        let src := if ckState s.dev 0 = ckLOCKED then 0 else if rd s.dev (pgAIR 0) AIR.REF_CFG_J13_EN = 1 ∧ v = true then 1 else 2
        rd e (pgAIR 0) AIR.REF_STAT_J13_PRESENT = b2n v ∧ rd e (pgAIR 0) AIR.REF_STAT_SOURCE = src
          ∧ (rd s.dev (pgAIR 0) AIR.REF_STAT_SOURCE ≠ src → rawBit e (pgAIR 0) 6 = true)
          ∧ OnlyRegs s.dev e [(pgAIR 0, 0xD4)] ∧ SameCore s.dev e)
    ∧ (∀ (c : Fin 16) (num : Nat) (k : Fin 12), Does (.frameNumberRead c num k) s fun e =>
        if ckState s.dev c = ckLOCKED then
          (if rd s.dev (pgAIR c) AIR.SRC_CFG_RAT = 0 then
              (airRt e c).gsm = some ((12 * (num / 26) + k) % 1253376)
                ∧ (airRt e c).pendFrame = some ((12 * (num / 26) + k) % 1253376 % 1024)
            else (airRt e c).gsm = (airRt s.dev c).gsm ∧ (airRt e c).pendFrame = some (num % 1024))
            ∧ OnlyRegs s.dev e [] ∧ SameCore s.dev e
        else e = settle s.dev)
    ∧ (∀ (c : Fin 16) (tick : Fin 307200), Does (.frameNowRead c tick) s fun e =>
      e.rep.out = .readWord (pgAIR c) 0x4C (peek s.dev (pgAIR c) 0x4C) :: s.dev.rep.out
        ∧ rd e (pgAIR c) AIR.TICK_LATCH_TICK = tick ∧ e.rep.hdr = s.dev.rep.hdr
        ∧ OnlyRegs s.dev e [(pgAIR c, 0x50), (pgAIR c, 0x54)] ∧ SameCore s.dev e)
    ∧ (Does .devLoopRead s fun e =>
      e.rep.out = .readWord (pgAIR 0) 0xDC (s.dev.devLoop % 4294967296) :: s.dev.rep.out
        ∧ e.devHi = s.dev.devLoop / 4294967296 % 4294967296 ∧ e.devLoop = s.dev.devLoop ∧ e.rep.hdr = s.dev.rep.hdr
        ∧ OnlyRegs s.dev e [] ∧ e.mode = s.dev.mode ∧ e.boot = s.dev.boot ∧ e.trust = s.dev.trust)

/-- For every powered state in which the clock's own page waits for no commit, AIR_FRAME_BOUNDARY answers a next
state: FRAME is the number read for this boundary where there is one, with SFN_KNOWN set, else FRAME plus 1 modulo
1024, HYPER counting where FRAME was 1023; HOLD_LEFT is one less in HOLDOVER and stays otherwise; the slew moves one
tick towards 0; a LOCKED clock shows the SNR and the rate that it measured; the clock's state stays. A commit of the
clock's own page that came before the cutoff is no longer pending. Where no page waits for a commit, no action of the
clock is enabled and none is deferred, capture memory, the part, device time, mode, start-up, trust and loop contexts
stay. (Air Clocks and the Scheduler: Counters; Air Clocks and the Scheduler: Holdover and loss; Air Clocks and the
Scheduler: The scheduler) -/
def Obligations.FrameBoundariesCountFrames : Prop :=
  ∀ (s : State) (c : Fin 16) (x : ClkMeas) (a : ActInput), Powered s →
    DoesMem (.airFrameBoundary c x a) s fun e m =>
      ((hdr s.dev (pgAIR c)).pending = false →
        (match (airRt s.dev c).pendFrame with
        | some f => rd e (pgAIR c) AIR.FRAME_NOW_FRAME = f % 1024 ∧ rd e (pgAIR c) AIR.CLK_STAT_SFN_KNOWN = 1
            ∧ rd e (pgAIR c) AIR.FRAME_NOW_HYPER = rd s.dev (pgAIR c) AIR.FRAME_NOW_HYPER
        | none => rd e (pgAIR c) AIR.FRAME_NOW_FRAME = (rd s.dev (pgAIR c) AIR.FRAME_NOW_FRAME + 1) % 1024
            ∧ rd e (pgAIR c) AIR.FRAME_NOW_HYPER
                = (if rd s.dev (pgAIR c) AIR.FRAME_NOW_FRAME = 1023 then (rd s.dev (pgAIR c) AIR.FRAME_NOW_HYPER + 1) % 65536
                  else rd s.dev (pgAIR c) AIR.FRAME_NOW_HYPER)
            ∧ rd e (pgAIR c) AIR.CLK_STAT_SFN_KNOWN = rd s.dev (pgAIR c) AIR.CLK_STAT_SFN_KNOWN)
        ∧ ckState e c = ckState s.dev c
        ∧ rd e (pgAIR c) AIR.CLK_STAT_HOLD_LEFT = rd s.dev (pgAIR c) AIR.CLK_STAT_HOLD_LEFT - (if ckState s.dev c = ckHOLDOVER then 1 else 0)
        ∧ (airRt e c).slew.natAbs = (airRt s.dev c).slew.natAbs - 1 ∧ (airRt e c).pendFrame = none
        ∧ (ckState s.dev c = ckLOCKED → rdS e (pgAIR c) AIR.SYNC_QUAL_SNR = clamp16 x.snr ∧ rdS e (pgAIR c) AIR.SYNC_QUAL_RATE = clamp16 x.rate))
      ∧ ((hdr s.dev (pgAIR c)).pending = true → takenAt s.dev 0 (pgAIR c) = true → (hdr e (pgAIR c)).pending = false)
      ∧ (NoCommit s.dev → (∀ i : Fin 256, rd s.dev (pgAIR c) (AIR.ACT_TIME_EN i) = 0) → s.dev.sched.deferred = [] →
          SameCore s.dev e ∧ m = s.cap)

/-- While the engine is powered, a command of the seven whose action is not due, has another type, or runs with the
boundary (tick 0 of a frame) changes nothing but the alarm outputs. Any other runs after the actions deferred to
earlier device ticks. With fewer than eight places of its device tick taken it takes the next and has its effect, LATE
staying: HOST_EVENT changes no register; MON_TRIGGER, where no entry waits for it, counts in MISSED with INT_RAW bit 4
of the monitor, and where the waiting entry takes it while converters are busy marks that entry; CAPTURE_START of a
channel below 32 that does not run and may start runs it with its position at 0, and of one that may not sets ERROR;
CAPTURE_STOP of a running RING or STREAM channel ends it STOPPED with INT_RAW bit ARG; MEAS_OPEN opens the window ARG,
MEAS_CLOSE closes it; SOUND_BURST starts the burst of branch ARG below 12. With all eight taken it is deferred, counts
in LATE with INT_RAW bit 3, and changes no other register. Either way an action under REF 0 is marked as run in its
frame, and one that runs once as done. The mode and trust stay. (Air Clocks and the Scheduler: The scheduler; Host
Interface, Master Selection and Queues: Capture channels; Monitor Converters: The sequence) -/
def Obligations.ScheduledActionsHaveTheirEffect : Prop :=
  ∀ (s : State) (t : Fin 7) (c : Fin 16) (i : Fin 256) (x : ActInput), Powered s →
    DoesMem (actionCmd t c i x) s fun e m =>
      if ActionRuns s.dev c i t then
        let d := (runDeferred (s.dev, s.cap) x.tick).1
        let m0 := (runDeferred (s.dev, s.cap) x.tick).2
        let arg := rd d (pgAIR c) (AIR.ACT_CTL_ARG i)
        e.sched.tick = x.tick
          ∧ (rd s.dev (pgAIR c) (AIR.ACT_TIME_REF i) = 0 → (airRt e c).ran.contains i.val = true
              ∧ (rd s.dev (pgAIR c) (AIR.ACT_CTL_REPEAT i) = 0 → (airRt e c).onceRun.contains i.val = true))
          ∧ (8 ≤ d.sched.ran → e.sched.ran = d.sched.ran ∧ e.sched.deferred = d.sched.deferred ++ [(c.val, i.val, x)] ∧ m = m0
              ∧ rd e (pgAIR c) AIR.SCHED_CNT_LATE = min 65535 (rd d (pgAIR c) AIR.SCHED_CNT_LATE + 1)
              ∧ rawBit e (pgAIR c) 3 = true ∧ OnlyRegs d e [(pgAIR c, 0x64)])
          ∧ (d.sched.ran < 8 → e.sched.ran = d.sched.ran + 1 ∧ e.sched.deferred = d.sched.deferred
              ∧ rd e (pgAIR c) AIR.SCHED_CNT_LATE = rd d (pgAIR c) AIR.SCHED_CNT_LATE
              ∧ (t = 0 → OnlyRegs d e [] ∧ m = m0)
              ∧ (t = 1 → m = m0
                  ∧ (if d.mon.phase = .wait ∧ rd d pgMSEQ (MSEQ.SEQ_B_TRIG d.mon.entry) = 1 then
                      d.mon.cur ≠ .none → e.mon.phase = .late ∧ e.mon.trig = true ∧ e.mon.entry = d.mon.entry
                    else rd e pgMON MON.TRIG_STAT_MISSED = min 65535 (rd d pgMON MON.TRIG_STAT_MISSED + 1) ∧ rawBit e pgMON 4 = true))
              ∧ (t = 2 → m = m0
                  ∧ (arg < 32 → capRunning d arg = false → capStartOk d arg = true → capRunning e arg = true
                      ∧ rd e pgCAP (CAP.CAP_POS_POS arg) = 0 ∧ rd e pgCAP (CAP.CAP_T0_LOOP arg) = d.devLoop % 4294967296)
                  ∧ (arg < 32 → capRunning d arg = false → capStartOk d arg = false → (hdr e pgCAP).error = true
                      ∧ capRunning e arg = false))
              ∧ (t = 3 → arg < 32 → capRunning d arg = true → capMode d arg ≠ 0 →
                  rd e pgCAP (CAP.CAP_STAT_STATE arg) = 3 ∧ rawBit e pgCAP arg = true)
              ∧ (t = 4 → e.sched.windows.contains arg = true ∧ OnlyRegs d e [] ∧ m = m0)
              ∧ (t = 5 → e.sched.windows.contains arg = false ∧ OnlyRegs d e [] ∧ m = m0)
              ∧ (t = 6 → arg < 12 → burstOn e arg = true ∧ m = m0))
          ∧ e.mode = s.dev.mode ∧ e.trust = s.dev.trust
      else e = settle s.dev ∧ m = s.cap

/-- While the engine is powered: TDD_SWITCH_ACTION of a slot with an active segment whose clock knows the frame number
and drives switches, and whose pattern is not empty, to receive, or to transmit from the first pattern period that
begins 307,200 ticks after a step, sets an engine port's switch in motion with its transmit mute on where it is
neither held nor forced, leaves a held switch as it is, keeps the pattern's direction for a forced one, and tells a
head's switch to change through its link's next frame; no register changes. TR_SWITCH_DONE of a switch in motion shows
its new state, the mute lifted in transmit alone. TDD_GATE_CHANGE closes an active TDD segment's gate, and opens it
under the same conditions on the frame number, the pattern and the period. In every other case each changes nothing
but the alarm outputs. The part, device time, mode, start-up, trust and loop contexts stay. (Air Clocks and the
Scheduler: TDD patterns; Antenna Ports, Band Sets and DC Feed: TDD switching; Extension Ports and the Vilson Link:
Control channel) -/
def Obligations.SwitchesAndGatesFollowThePattern : Prop :=
  ∀ s : State, Powered s →
    (∀ (b : Fin 12) (slot : Fin 2) (tx : Bool) (period : Nat) (tick : Fin 960), Does (.tddSwitchAction b slot tx period tick) s fun e =>
      match onSlot s.dev b slot with
      | [] => e = settle s.dev
      | n :: _ =>
        if clkDrives s.dev (clockOf s.dev n) = true ∧ patEmpty s.dev n = false ∧ (tx = false ∨ 307200 ≤ period) then
          let was := switchRt s.dev (2 * b + slot)
          let now := switchRt e (2 * b + slot)
          (if 4 ≤ b.val then
              e.rep.out = .headSwitch (linkOf b) (2 * (b.val % 2) + slot) tx tick :: s.dev.rep.out
                ∧ (extRt e (linkOf b)).events
                    = (extRt s.dev (linkOf b)).events ++ [eventWord (decide (b.val % 2 = 1)) (decide (slot = 1)) tx tick]
            else if rd s.dev (pgPORT b) (holdFld slot) = 1 then now = was
            else if forceOf s.dev b slot = 0 then now = { target := some tx, mute := true, sched := tx }
            else now = { was with sched := tx })
          ∧ e.rep.hdr = s.dev.rep.hdr ∧ OnlyRegs s.dev e [] ∧ SameCore s.dev e
        else e = settle s.dev)
    ∧ (∀ (p : Fin 4) (slot : Fin 2), Does (.trSwitchDone p slot) s fun e =>
        match (switchRt s.dev (2 * p + slot)).target with
        | none => e = settle s.dev
        | some tx =>
          rd e (pgPORT p) (stateFld slot) = b2n tx
            ∧ switchRt e (2 * p + slot) = { target := none, mute := ! tx, sched := (switchRt s.dev (2 * p + slot)).sched }
            ∧ e.rep.hdr = s.dev.rep.hdr ∧ OnlyRegs s.dev e [(pgPORT p, (stateFld slot).off)] ∧ SameCore s.dev e)
    ∧ (∀ (n : Fin 1024) (opens : Bool) (period : Nat), Does (.tddGateChange n opens period) s fun e =>
        if isActive s.dev n = true ∧ isTdd s.dev n = true ∧ (opens = true → 307200 ≤ period ∧ patEmpty s.dev n = false
            ∧ rd s.dev (pgAIR (clockOf s.dev n)) AIR.CLK_STAT_SFN_KNOWN = 1) then
          (segRt e n).gated = (! opens) ∧ (opens = true → (airRt e (clockOf s.dev n)).stepGate = false)
            ∧ OnlyRegs s.dev e [] ∧ SameCore s.dev e
        else e = settle s.dev)

/-- While the engine is powered: ISO_ESTIMATE_DONE of a segment that is not active, or whose estimate has not run its
length, changes nothing but the alarm outputs. Of an estimate in which an own branch sent no chip or the cluster was
lost, the next estimate begins and no register and no header changes. Of any other, ISO is the power sum of the
measured own branches' isolations up to 280 dB, ISO_X that of the cross branches or 280 dB where there are none, BOUND
is 1 where no branch was detected or the sum exceeds 280 dB, each measured branch's COUPLE is valid and every other's
is not, SNR_H is the estimate's, DEPTH the smaller of depth and SNR or -32768 for a bound, SEQ counts, GUARD is 0,
VALID is 1 where no branch was added during the estimate, INT_RAW bit 8 is set, the estimate's time is the loop
period, and the next estimate begins. Outside RECOVERY, which it may end, only the segment's page changes. The supply,
the active segments, start-up and trust stay. (Cricket Probe, Isolation Measurement and Feedback Cancellation:
Isolation estimates; Cricket Probe, Isolation Measurement and Feedback Cancellation: Depth and credit) -/
def Obligations.EstimatesMeasureTheIsolation : Prop :=
  ∀ (s : State) (n : Fin 1024) (x : Estimate), Powered s → Does (.isoEstimateDone n x) s fun e =>
    let p := pgSEG n
    let i := isoRt s.dev n
    let began := (i.phase + perSamples s.dev n) / coverLen s.dev n * coverLen s.dev n
    e.supply = s.dev.supply ∧ e.act = s.dev.act ∧ e.boot = s.dev.boot ∧ e.trust = s.dev.trust ∧
      if isActive s.dev n = false ∨ estDone s.dev n = false then e = settle s.dev
      else if estLost s.dev n x = true then
        (isoRt e n).added = [] ∧ (isoRt e n).began = began ∧ e.rep.hdr = s.dev.rep.hdr ∧ OnlyRegs s.dev e []
      else
        let own := ownOf s.dev n x
        let sum := - psumC (own.map fun o => - o.2.1)
        let bound := (own.all fun o => ! o.2.2) || decide (2800 < sum)
        rdS e p SEG.ISO_STAT_ISO = clamp16 (min 2800 sum)
          ∧ rdS e p SEG.ISO_AUX_ISO_X
            = clamp16 (if x.cross = [] ∨ crossAny s.dev n = false then 2800 else min 2800 (- psumC (x.cross.map fun c => - c)))
          ∧ rd e p SEG.ISO_STAT_BOUND = b2n bound ∧ rd e p SEG.ISO_STAT_GUARD = 0
          ∧ (∀ b : Fin 12, rd e p (SEG.COUPLE_VALID b) = b2n (own.any fun o => decide (o.1 = b.val)))
          ∧ rdS e p SEG.ISO_AGE_SNR_H = clamp16 x.snr
          ∧ rdS e p SEG.CANC_STAT_DEPTH = clamp16 (if bound then -32768 else min x.depth x.snr)
          ∧ rd e p SEG.ISO_STAT_SEQ = (i.seq + 1) % 256
          ∧ rawBit e p 8 = true ∧ (i.added = [] → rd e p SEG.ISO_STAT_VALID = 1)
          ∧ (isoRt e n).time = some s.dev.devLoop ∧ (isoRt e n).began = began
          ∧ (s.dev.mode ≠ .recovery → OnlyPages s.dev e [p] ∧ SameCore s.dev e)

/-- While the engine is powered: ISO_VALID_LAPSE of a valid segment clears VALID and the credit with INT_RAW bit 9; of
another it changes nothing but the alarm outputs. GUARD_WINDOW_END of an active segment with an estimate changes no
register, and where condition (a) or (b) holds it prepares the failure, with the isolation of the window less 1 dB,
for the first latch at least 1.00 ms later; of any other segment it changes nothing but the alarm outputs.
GUARD_FAIL_APPLY of a prepared failure, after an update that is due at the same latch, lowers ISO to that value where
it is lower, sets GUARD, clears the credit, counts GUARD_FAILS and sets INT_RAW bit 10; with none prepared it changes
nothing but the alarm outputs. Only the segment's page changes, and the part, device time, mode, start-up, trust and
loop contexts stay. (Cricket Probe, Isolation Measurement and Feedback Cancellation: Isolation estimates; Cricket
Probe, Isolation Measurement and Feedback Cancellation: Depth and credit) -/
def Obligations.IsolationLapsesAndFails : Prop :=
  ∀ (s : State) (n : Fin 1024), Powered s →
    (Does (.isoValidLapse n) s fun e =>
      if rd s.dev (pgSEG n) SEG.ISO_STAT_VALID = 1 then
        rd e (pgSEG n) SEG.ISO_STAT_VALID = 0 ∧ rd e (pgSEG n) SEG.CANC_STAT_CREDIT = 0 ∧ rawBit e (pgSEG n) 9 = true
          ∧ (isoRt e n).cPrev = 0 ∧ OnlyPages s.dev e [pgSEG n] ∧ SameCore s.dev e
      else e = settle s.dev)
    ∧ (∀ (eHs eRs eNs : Nat) (iso : Int), Does (.guardWindowEnd n eHs eRs eNs iso) s fun e =>
        if isActive s.dev n = true ∧ (isoRt s.dev n).time.isSome = true then
          (isoRt e n).guard = (if guardA (rdS s.dev (pgSEG n) SEG.CANC_STAT_CREDIT) (isoRt s.dev n).eH eRs eNs = true
              ∨ guardB (isoRt s.dev n).eH eHs eNs = true then some (s.dev.devLoop + 33, iso - 20) else (isoRt s.dev n).guard)
            ∧ e.rep.hdr = s.dev.rep.hdr ∧ OnlyRegs s.dev e [] ∧ SameCore s.dev e
        else e = settle s.dev)
    ∧ (Does (.guardFailApply n) s fun e =>
        match (isoRt s.dev n).guard with
        | none => e = settle s.dev
        | some (_, v) =>
          rdS e (pgSEG n) SEG.ISO_STAT_ISO = clamp16 (min (rdS s.dev (pgSEG n) SEG.ISO_STAT_ISO) v)
            ∧ rd e (pgSEG n) SEG.ISO_STAT_GUARD = 1 ∧ rd e (pgSEG n) SEG.CANC_STAT_CREDIT = 0 ∧ (isoRt e n).cPrev = 0
            ∧ rd e (pgSEG n) SEG.CANC_CNT_GUARD_FAILS = min 65535 (rd s.dev (pgSEG n) SEG.CANC_CNT_GUARD_FAILS + 1)
            ∧ rawBit e (pgSEG n) 10 = true ∧ (isoRt e n).guard = none
            ∧ (updDue s.dev n = true → (isoRt e n).upd = none) ∧ OnlyPages s.dev e [pgSEG n] ∧ SameCore s.dev e)

/-- While the engine is powered, CANC_UPDATE_APPLY of a segment with no update prepared changes nothing but the alarm
outputs. With one, the update is taken, and the candidate of an estimate that moves the credit is the previous one
from then on; the credit becomes the smallest of that candidate, the previous candidate and the credit plus CREDIT_UP,
or stays where the estimate moves none, and for a move of the window is no more than the moved window's candidate; a
move writes BULK_NOW and the block exponent, counts in MOVES and sets INT_RAW bit 12, an update of taps alone writes
the exponent and leaves BULK_NOW and MOVES, and one with neither leaves all registers of the segment but the credit.
Only the segment's page changes; the part, device time, mode, start-up, trust and loop contexts stay. (Cricket Probe,
Isolation Measurement and Feedback Cancellation: The feedback canceller; Cricket Probe, Isolation Measurement and
Feedback Cancellation: Depth and credit) -/
def Obligations.CancellerUpdatesRaiseTheCreditSlowly : Prop :=
  ∀ (s : State) (n : Fin 1024), Powered s → Does (.cancUpdateApply n) s fun e =>
    match (isoRt s.dev n).upd with
    | none => e = settle s.dev
    | some u =>
      let p := pgSEG n
      let was := rdS s.dev p SEG.CANC_STAT_CREDIT
      let c := match u.cand with
        | some k => min k (min (isoRt s.dev n).cPrev (was + rd s.dev p SEG.ISO_CFG_CREDIT_UP))
        | none => was
      (isoRt e n).upd = none ∧ (isoRt e n).cPrev = u.cand.getD (isoRt s.dev n).cPrev
        ∧ (match u.move, u.taps with
          | some (bulk, mc), some (_, x) => rdS e p SEG.CANC_STAT_CREDIT = clamp16 (min c mc)
              ∧ rd e p SEG.CANC_NOW_BULK_NOW = bulk % 65536 ∧ rd e p SEG.CANC_NOW_EXP_NOW = x % 32
              ∧ rd e p SEG.CANC_CNT_MOVES = min 65535 (rd s.dev p SEG.CANC_CNT_MOVES + 1) ∧ rawBit e p 12 = true
          | none, some (_, x) => rdS e p SEG.CANC_STAT_CREDIT = clamp16 c ∧ rd e p SEG.CANC_NOW_EXP_NOW = x % 32
              ∧ rd e p SEG.CANC_NOW_BULK_NOW = rd s.dev p SEG.CANC_NOW_BULK_NOW
              ∧ rd e p SEG.CANC_CNT_MOVES = rd s.dev p SEG.CANC_CNT_MOVES
          | some (_, mc), none => rdS e p SEG.CANC_STAT_CREDIT = clamp16 (min c mc) ∧ OnlyRegs s.dev e [(p, 0x830)]
          | none, none => rdS e p SEG.CANC_STAT_CREDIT = clamp16 c ∧ OnlyRegs s.dev e [(p, 0x830)])
        ∧ OnlyPages s.dev e [p] ∧ SameCore s.dev e

/-- While the engine is powered: SOUND_BURST_END of a branch with a burst clears its bit of SOUND_STAT, leaves the
other branches' bits and sets INT_RAW bit 0 of the probe page; with no burst it changes nothing but the alarm outputs.
NODE_ID_WRITE of a legal identity with no segment active writes NODE_ID; with a segment active or an illegal identity,
or on a locked page where the value would change, it sets ERROR and leaves the register. IR_DATA_READ returns IR_DATA
as the newest output and moves IDX on, wrapping at 512. The part, device time, mode, start-up, trust and loop contexts
stay. (Cricket Probe, Isolation Measurement and Feedback Cancellation: Sounding bursts; Cricket Probe, Isolation
Measurement and Feedback Cancellation: Isolation estimates; Cricket Link and the Repeater Fabric: The loop through two
engines) -/
def Obligations.ProbeCommandsKeepTheirRegisters : Prop :=
  ∀ s : State, Powered s →
    (∀ b : Fin 12, Does (.soundBurstEnd b) s fun e =>
      if burstOn s.dev b = true then
        burstOn e b = false ∧ (∀ k : Fin 12, k ≠ b → burstOn e k = burstOn s.dev k) ∧ rawBit e pgPRB 0 = true ∧ SameCore s.dev e
      else e = settle s.dev)
    ∧ (∀ id : BitVec 14, Does (.nodeIdWrite id) s fun e =>
        if s.dev.act = [] ∧ 1 ≤ id.toNat ∧ id.toNat ≤ 0x3E80
            ∧ ((hdr s.dev pgPRB).lock = false ∨ rd s.dev pgPRB PRB.NODE_NODE_ID = id.toNat) then
          rd e pgPRB PRB.NODE_NODE_ID = id.toNat ∧ e.rep.hdr = s.dev.rep.hdr ∧ OnlyRegs s.dev e [(pgPRB, 0x40)] ∧ SameCore s.dev e
        else TurnedAway s.dev e pgPRB)
    ∧ (∀ n : Fin 1024, Does (.irDataRead n) s fun e =>
        e.rep.out = .readWord (pgSEG n) 0x848 (peek s.dev (pgSEG n) 0x848) :: s.dev.rep.out
          ∧ rd e (pgSEG n) SEG.IR_IDX_IDX = (rd s.dev (pgSEG n) SEG.IR_IDX_IDX + 1) % 512
          ∧ e.rep.hdr = s.dev.rep.hdr ∧ OnlyRegs s.dev e [(pgSEG n, (SEG.IR_IDX_IDX).off)] ∧ SameCore s.dev e)

/-- For every powered state: on a locked link page NB_PIN, NB_UNPIN, NB_REMOVE and an LNK_ENABLE that would change EN
set ERROR and change no register. Else LNK_ENABLE writes EN, an enable without an identity sets ERROR, a disable
abandons every reception and cuts every frame short, and only the link's pages change. NB_PIN pins a known neighbour's
entry, makes a pinned NEW entry of a legal unknown identity in the first free place with INT_RAW bit 1, and sets ERROR
where there is none or the identity is illegal; NB_UNPIN clears the pin; NB_REMOVE empties an unpinned entry that owes
and is owed nothing and sets ERROR otherwise. NB_STALE turns an ACTIVE entry, of which nothing has been heard for
STALE seconds, STALE and leaves any other. The other entries stay, and so do the supply, device time, start-up and
trust. (Cricket Link and the Repeater Fabric: The neighbour table; Cricket Link and the Repeater Fabric: Link
registers; Cricket Link and the Repeater Fabric: Frames) -/
def Obligations.NeighbourTableCommandsKeepTheTable : Prop :=
  ∀ (s : State) (id : BitVec 14), Powered s →
    let locked := (hdr s.dev pgLNK).lock
    let others (e : Dev) (i : Nat) : Prop := ∀ k : Fin 256, k.val ≠ i → nbOf e k = nbOf s.dev k
    (∀ en : Bool, Does (.lnkEnable en) s fun e =>
      if locked = true ∧ rd s.dev pgLNK LNK.LNK_CTRL_EN ≠ b2n en then TurnedAway s.dev e pgLNK
      else rd e pgLNK LNK.LNK_CTRL_EN = b2n en ∧ (en = true → nodeId s.dev = 0 → (hdr e pgLNK).error = true)
        ∧ (en = false → (∀ l : Fin 16, rxOf e l = rx0) ∧ ∀ t : Fin 8, sendingOf e t = none)
        ∧ e.lnk.nbs = s.dev.lnk.nbs ∧ OnlyPages s.dev e [pgLNK, pgLTX] ∧ SameCore s.dev e)
    ∧ (Does (.nbPin id) s fun e =>
        if locked then TurnedAway s.dev e pgLNK
        else (match nbFind s.dev id.toNat with
          | some i => nbOf e i = { nbOf s.dev i with pin := true } ∧ others e i
          | none => match nbSlot s.dev with
            | some i => if 1 ≤ id.toNat ∧ id.toNat ≤ 0x3E80 then
                nbOf e i = { nb0 with id := id.toNat, state := nbNEW, pin := true } ∧ others e i ∧ rawBit e pgLNK 1 = true
                else (hdr e pgLNK).error = true ∧ e.lnk = s.dev.lnk
            | none => (hdr e pgLNK).error = true ∧ e.lnk = s.dev.lnk)
          ∧ OnlyRegs s.dev e [] ∧ SameCore s.dev e)
    ∧ (Does (.nbUnpin id) s fun e =>
        if locked then TurnedAway s.dev e pgLNK
        else (match nbFind s.dev id.toNat with
          | some i => nbOf e i = { nbOf s.dev i with pin := false } ∧ others e i
          | none => e.lnk = s.dev.lnk)
          ∧ OnlyRegs s.dev e [] ∧ SameCore s.dev e)
    ∧ (Does (.nbRemove id) s fun e =>
        if locked then TurnedAway s.dev e pgLNK
        else (match nbFind s.dev id.toNat with
          | some i => if (nbOf s.dev i).pin = false ∧ nbFree s.dev (nbOf s.dev i) = true then nbOf e i = nb0 ∧ others e i
              else (hdr e pgLNK).error = true ∧ e.lnk = s.dev.lnk ∧ OnlyRegs s.dev e []
          | none => (hdr e pgLNK).error = true ∧ e.lnk = s.dev.lnk ∧ OnlyRegs s.dev e [])
          ∧ e.supply = .on ∧ e.devLoop = s.dev.devLoop ∧ e.boot = s.dev.boot ∧ e.trust = s.dev.trust)
    ∧ (Does (.nbStale id) s fun e =>
        (match nbFind s.dev id.toNat with
          | some i =>
            (nbOf e i).state = (if (nbOf s.dev i).state = nbACTIVE
                ∧ (nbOf s.dev i).heard.getD 0 + 32000 * rd s.dev pgLNK LNK.LNK_HOLD_STALE ≤ s.dev.devLoop then nbSTALE
              else (nbOf s.dev i).state)
              ∧ nbOf e i = { nbOf s.dev i with state := (nbOf e i).state } ∧ others e i
          | none => e.lnk = s.dev.lnk)
          ∧ OnlyRegs s.dev e [] ∧ SameCore s.dev e)

/-- While the engine is powered: HELLO_TIMER, with the link running and a working slot, queues one HELLO to address 0,
and REPORT_TIMER, with the link running, one report to every ACTIVE neighbour with a measured coupling; each takes the
next SEQ, and otherwise neither changes more than the alarm outputs. FRAME_TX_START of a slot whose backoff has run
takes the message it ran for, or an injector holds it; where none acts on it the frame's symbols go out at the slot's
SF and density; in any other case it changes nothing but the alarm outputs. FRAME_TX_END of a sending slot counts
TX_OK and the slot's SENT and frees the slot, and no copy of the message that stays queued awaits this slot; of
another it changes nothing but the alarm outputs. DEAF_END of a slot with no chips on the air ends the deafness it
caused. YIELD_ACK_TIMEOUT of a GAIN_YIELD unacknowledged for ACK_WAIT queues it again up to three times, then marks
the neighbour with INT_RAW bit 5, and drops it where a newer one is pending; with none it changes nothing but the
alarm outputs. The part, device time, mode, start-up, trust and loop contexts stay. (Cricket Link and the Repeater
Fabric: Messages; Cricket Link and the Repeater Fabric: Sending; Cricket Link and the Repeater Fabric: Listening and
talking slots) -/
def Obligations.MessagesAreQueuedAndSent : Prop :=
  ∀ s : State, Powered s →
    (Does .helloTimer s fun e =>
      if canSend s.dev = true ∧ (slotTurn s.dev s.dev.lnk.turn).take 5 ≠ [] then
        (∃ m : Msg, m ∈ e.lnk.txq ∧ m.typ = mHELLO ∧ m.dst = 0 ∧ m.seq = rd s.dev pgLNK LNK.LNK_STAT_SEQ ∧ m.sent = []
          ∧ (∀ q ∈ e.lnk.txq, q = m ∨ (q ∈ s.dev.lnk.txq ∧ ¬ (q.typ = mHELLO ∧ q.dst = 0))))
        ∧ rd e pgLNK LNK.LNK_STAT_SEQ = (rd s.dev pgLNK LNK.LNK_STAT_SEQ + 1) % 65536 ∧ e.lnk.nbs = s.dev.lnk.nbs
        ∧ e.rep = s.dev.rep ∧ OnlyRegs s.dev e [(pgLNK, (LNK.LNK_STAT_SEQ).off)] ∧ SameCore s.dev e
      else e = settle s.dev)
    ∧ (Does .reportTimer s fun e =>
        let dsts := (nbUsed s.dev).filter fun i =>
          canSend s.dev && decide ((nbOf s.dev i).state = nbACTIVE) && decide (cinSlots s.dev (nbOf s.dev i) ≠ [])
        (∀ i ∈ dsts, ∃ m : Msg, m ∈ e.lnk.txq ∧ m.typ = mREPORT ∧ m.dst = (nbOf s.dev i).id ∧ m.sent = [])
          ∧ rd e pgLNK LNK.LNK_STAT_SEQ = (rd s.dev pgLNK LNK.LNK_STAT_SEQ + dsts.length) % 65536 ∧ e.lnk.nbs = s.dev.lnk.nbs
          ∧ e.rep = s.dev.rep ∧ OnlyRegs s.dev e [(pgLNK, (LNK.LNK_STAT_SEQ).off)] ∧ SameCore s.dev e)
    ∧ (∀ t : Fin 8, Does (.frameTxStart t) s fun e =>
        let n := tlkSeg s.dev t
        match (talkOf s.dev t).back, txNext s.dev t with
        | some (seq, at'), some m =>
          if tlkState s.dev t = 2 ∧ m.seq = seq ∧ at' ≤ (isoRt s.dev n).phase + perSamples s.dev n then
            (sendingOf e t = some m ∨ heldTxOf e t = some (m, false)) ∧ (talkOf e t).back = none
              ∧ ((∀ i : Fin 8, injOn s.dev s.dev.rep i 2 t 0 = false) →
                  let syms := frameSymbols m.typ (nodeId s.dev) m.dst m.bytes (crc16 m.bytes)
                  sendingOf e t = some m ∧ (talkOf e t).chips = true ∧ (talkOf e t).syms = syms ∧ (talkOf e t).first = at'
                    ∧ e.rep.out = .linkFrame t (rd s.dev pgLTX (LTX.TLK_CFG_SF t)) (frameDens s.dev n (tlkBranch s.dev t)) syms
                        :: s.dev.rep.out)
              ∧ e.lnk.nbs = s.dev.lnk.nbs ∧ e.lnk.txq = s.dev.lnk.txq ∧ SameCore s.dev e
          else e = settle s.dev
        | _, _ => e = settle s.dev)
    ∧ (∀ t : Fin 8, Does (.frameTxEnd t) s fun e =>
        match sendingOf s.dev t with
        | none => e = settle s.dev
        | some m =>
          sendingOf e t = none ∧ rd e pgLNK LNK.LNK_CNT0_TX_OK = min 65535 (rd s.dev pgLNK LNK.LNK_CNT0_TX_OK + 1)
            ∧ rd e pgLTX (LTX.TLK_STAT_SENT t) = (rd s.dev pgLTX (LTX.TLK_STAT_SENT t) + 1) % 65536
            ∧ (∀ q ∈ e.lnk.txq, q.seq = m.seq → q.typ = m.typ → q.dst = m.dst → q.sent.contains t.val = true)
            ∧ e.lnk.nbs = s.dev.lnk.nbs ∧ SameCore s.dev e)
    ∧ (∀ t : Fin 8, Does (.deafEnd t) s fun e =>
        if sendingOf s.dev t ≠ none ∧ (talkOf s.dev t).chips = true then e = settle s.dev
        else talkOf e t = { talkOf s.dev t with span := none } ∧ (∀ k : Fin 8, k ≠ t → talkOf e k = talkOf s.dev k)
          ∧ e.lnk.nbs = s.dev.lnk.nbs ∧ e.lnk.rx = s.dev.lnk.rx ∧ e.rep = s.dev.rep ∧ OnlyRegs s.dev e [] ∧ SameCore s.dev e)
    ∧ (∀ dst : BitVec 14, Does (.yieldAckTimeout dst) s fun e =>
        match s.dev.lnk.acks.find? (fun m => decide (m.dst = dst.toNat)
            && decide (m.last + 32000 * rd s.dev pgLNK LNK.LNK_WAIT_ACK_WAIT ≤ s.dev.devLoop)) with
        | none => e = settle s.dev
        | some m =>
          e.lnk.acks = s.dev.lnk.acks.filter (· ≠ m)
            ∧ (if s.dev.lnk.txq.any fun q => decide (q.typ = mYIELD ∧ q.dst = dst.toNat) then e.lnk.txq = s.dev.lnk.txq
              else if m.tries < 3 then e.lnk.txq = s.dev.lnk.txq ++ [{ m with tries := m.tries + 1, sent := [] }]
              else e.lnk.txq = s.dev.lnk.txq ∧ rawBit e pgLNK 5 = true
                ∧ ∀ i, nbFind s.dev dst.toNat = some i → (nbOf e i).noAck = true)
            ∧ OnlyRegs s.dev e [] ∧ SameCore s.dev e)

/-- While the engine is powered: PREAMBLE_DETECT on a slot that does not search or is DEAF changes nothing but the
alarm outputs. In SEARCH it records NF, and a detection at or above the threshold starts a reception; one alone starts
it with its code, level and timing, counting DETECT. During a reception one alone restarts it where it is stronger by
CAPTURE, counting PREEMPT, changes nothing where it coincides with the frame, and is else ignored, kept and counted.
The sync word leads from SYNC to HEADER; its absence is a FALSE_START, which resumes with a kept detection that is
still live. A header that is damaged or illegal is a false start, one for another addressee ends the reception, any
other leads to PAYLOAD. A payload ends the reception; where no injector acts on it, PAY_CRC counts a damaged one,
RX_OK a good one, which from the engine's own identity sets DUP_ID with INT_RAW bit 6, counts as DUPLICATE where its
SEQ has been seen, and is else handed over from a known neighbour or as a HELLO. In any other state each changes
nothing but the alarm outputs. The part, device time, mode, start-up, trust and loop contexts stay. (Cricket Link and
the Repeater Fabric: Receiving; Cricket Link and the Repeater Fabric: A stronger frame during a reception; Cricket
Link and the Repeater Fabric: Duplicates) -/
def Obligations.ReceptionsFollowTheirStates : Prop :=
  ∀ (s : State) (l : Fin 16), Powered s →
    let r := rxOf s.dev l
    let falseStart (live : Bool) (e : Dev) : Prop :=
      rd e pgLNK LNK.LNK_CNT1_FALSE_START = min 65535 (rd s.dev pgLNK LNK.LNK_CNT1_FALSE_START + 1)
        ∧ (match keptBest s.dev l, live with
          | some x, true => (rxOf e l).state = rxSYNC ∧ (rxOf e l).sf = x.sf ∧ (rxOf e l).s = x.s
          | _, _ => (rxOf e l).state = rxSEARCH)
    (∀ (nf : Int) (dets : List (Fin 4 × Int × Nat)), Does (.preambleDetect l nf dets) s fun e =>
      if searching s.dev l = false ∨ deafNow s.dev l = true then e = settle s.dev
      else
        (r.state = rxSEARCH → rdS e pgLSN (LSN.LSN_NF_NF l) = clamp16 nf
            ∧ ((dets.any fun x => detected s.dev x.1 x.2.1) = true → (rxOf e l).state = rxSYNC))
          ∧ ((dets.all fun x => ! detected s.dev x.1 x.2.1) = true → rxOf e l = r)
          ∧ (∀ (sf : Fin 4) (lv : Int) (lag : Nat), dets = [(sf, lv, lag)] → detected s.dev sf lv = true →
              let x : Det := ⟨sf, lv, lag, s.dev.devLoop⟩
              if r.state = rxSEARCH ∨ (coincides r x = false ∧ r.s + rd s.dev pgLNK LNK.LNK_DET_CAPTURE ≤ lv) then
                (rxOf e l).state = rxSYNC ∧ (rxOf e l).sf = sf ∧ (rxOf e l).s = lv ∧ (rxOf e l).lag = lag
                  ∧ rd e pgLNK LNK.LNK_CNT1_DETECT = min 65535 (rd s.dev pgLNK LNK.LNK_CNT1_DETECT + 1)
                  ∧ (r.state ≠ rxSEARCH →
                      rd e pgLNK LNK.LNK_CNT2_PREEMPT = min 65535 (rd s.dev pgLNK LNK.LNK_CNT2_PREEMPT + 1))
              else if coincides r x = true then rxOf e l = r
              else (rxOf e l).state = r.state ∧ (rxOf e l).s = r.s ∧ x ∈ (rxOf e l).keep
                ∧ rd e pgLNK LNK.LNK_CNT3_IGNORED = min 65535 (rd s.dev pgLNK LNK.LNK_CNT3_IGNORED + 1))
          ∧ e.rep = s.dev.rep ∧ SameCore s.dev e)
    ∧ (Does (.frameSyncFound l) s fun e =>
        if rxState s.dev l = rxSYNC then rxOf e l = { r with state := rxHEADER } ∧ OnlyRegs s.dev e [] ∧ SameCore s.dev e
        else e = settle s.dev)
    ∧ (∀ live : Bool, Does (.frameSyncTimeout l live) s fun e =>
        if rxState s.dev l = rxSYNC then falseStart live e ∧ SameCore s.dev e else e = settle s.dev)
    ∧ (∀ (ver : BitVec 2) (typ : BitVec 4) (len : BitVec 6) (src dst : BitVec 14) (crc : BitVec 8) (live : Bool),
        Does (.frameHeaderDone l ver typ len src dst crc live) s fun e =>
        let h := headerOf (ver ++ typ ++ len ++ src ++ dst ++ crc)
        if rxState s.dev l = rxHEADER then
          (if h.ok = false ∨ h.ver ≠ 0 ∨ h.typ = 0 ∨ 4 < h.typ ∨ h.len < 4 ∨ 48 < h.len then falseStart live e
          else rd e pgLNK LNK.LNK_CNT1_FALSE_START = rd s.dev pgLNK LNK.LNK_CNT1_FALSE_START
            ∧ (if h.dst ≠ 0 ∧ h.dst ≠ nodeId s.dev then (rxOf e l).state = rxSEARCH
              else (rxOf e l).state = rxPAYLOAD ∧ (rxOf e l).hdr = some (h.typ, h.len, h.src, h.dst)))
          ∧ SameCore s.dev e
        else e = settle s.dev)
    ∧ (∀ (b : List Byte) (crc : BitVec 16), Does (.framePayloadDone l b crc) s fun e =>
        match rxState s.dev l, r.hdr with
        | 3, some (typ, len, src, _) =>
          let f : RxFrame := ⟨l, r.sf, typ, src, (b.map BitVec.toNat).take len⟩
          (rxOf e l).state = rxSEARCH ∧ SameCore s.dev e
            ∧ (heldRxOf s.dev l = none → (∀ i : Fin 8, injOn s.dev s.dev.rep i 2 l 1 = false) →
                if crc16 f.bytes ≠ crc.toNat then
                  rd e pgLNK LNK.LNK_CNT2_PAY_CRC = min 65535 (rd s.dev pgLNK LNK.LNK_CNT2_PAY_CRC + 1) ∧ e.lnk.frames = s.dev.lnk.frames
                else rd e pgLNK LNK.LNK_CNT0_RX_OK = min 65535 (rd s.dev pgLNK LNK.LNK_CNT0_RX_OK + 1)
                  ∧ (if src = nodeId s.dev then rd e pgLNK LNK.LNK_STAT_DUP_ID = 1 ∧ rawBit e pgLNK 6 = true ∧ e.lnk.frames = s.dev.lnk.frames
                    else if seqSeen s.dev src (beAt f.bytes 0 2) = true then
                      rd e pgLNK LNK.LNK_CNT4_DUPLICATE = min 65535 (rd s.dev pgLNK LNK.LNK_CNT4_DUPLICATE + 1)
                        ∧ e.lnk.frames = s.dev.lnk.frames
                    else e.lnk.frames = if (nbFind s.dev src).isSome ∨ typ = mHELLO then s.dev.lnk.frames ++ [f] else s.dev.lnk.frames))
        | _, _ => e = settle s.dev)

/-- While the engine is powered: RX_HELLO, RX_COUPLING_REPORT, RX_GAIN_YIELD and RX_ACK take the oldest frame handed
over where it has the command's type, and change nothing but the alarm outputs otherwise. A frame whose entries have
not the type's form is dropped, and so is one but a HELLO from an unknown sender. Of any other the sender's entry
shows when it was heard, remembers the frame's SEQ among its last eight and is ACTIVE again where it was STALE; a
HELLO's spans, a report's couplings with its yields, or a GAIN_YIELD's yields replace those of the same centre and
direction and the others stay; an ACK clears NOACK and the GAIN_YIELD it acknowledges waits no longer. INT_RAW bit 0
of the link page is set. A HELLO of an unknown sender makes a NEW entry in the first free place, with INT_RAW bit 1,
or in that of a STALE one it may evict, with bit 2; where there is none it is refused and counted, with bit 2. The
supply, device time, start-up and trust stay. (Cricket Link and the Repeater Fabric: Messages; Cricket Link and the
Repeater Fabric: The neighbour table; Cricket Link and the Repeater Fabric: Sending) -/
def Obligations.MessagesReceivedReachTheTable : Prop :=
  ∀ s : State, Powered s →
    let stays (e : Dev) : Prop :=
      e.supply = s.dev.supply ∧ e.devLoop = s.dev.devLoop ∧ e.boot = s.dev.boot ∧ e.trust = s.dev.trust
    match s.dev.lnk.frames with
    | [] => Does .rxHello s (· = settle s.dev) ∧ Does .rxCouplingReport s (· = settle s.dev)
        ∧ Does .rxGainYield s (· = settle s.dev) ∧ Does .rxAck s (· = settle s.dev)
    | f :: t =>
      let known := nbFind s.dev f.src
      let i := known.getD 0
      let old := nbOf s.dev i
      let taken (e : Dev) : Prop := (nbOf e i).heard = some s.dev.devLoop
        ∧ (nbOf e i).seqs = (beAt f.bytes 0 2 :: old.seqs).take 8 ∧ (nbOf e i).id = old.id ∧ (nbOf e i).pin = old.pin
        ∧ (nbOf e i).state = (if old.state = nbSTALE then nbACTIVE else old.state) ∧ rawBit e pgLNK 0 = true
      let dropped (e : Dev) : Prop := e.lnk.nbs = s.dev.lnk.nbs ∧ OnlyRegs s.dev e [] ∧ SameCore s.dev e
      (Does .rxHello s fun e =>
        if f.typ ≠ mHELLO then e = settle s.dev
        else e.lnk.frames = t ∧ stays e ∧
          match entriesOf f 9 5 with
          | none => dropped e
          | some l =>
            if known.isSome then taken e ∧ (nbOf e i).spans = mergeSpans old.spans (l.map parseSpan) ∧ (nbOf e i).reps = old.reps
              ∧ (nbOf e i).yields = old.yields
            else match (nbSlot s.dev).or (evictable s.dev) with
              | some j => (nbOf e j).id = f.src ∧ (nbOf e j).state = nbNEW ∧ (nbOf e j).spans = l.map parseSpan ∧ rawBit e pgLNK 1 = true
                  ∧ (nbSlot s.dev = none → rawBit e pgLNK 2 = true)
              | none => rd e pgLNK LNK.LNK_CNT4_REFUSED = min 65535 (rd s.dev pgLNK LNK.LNK_CNT4_REFUSED + 1)
                  ∧ rawBit e pgLNK 2 = true ∧ e.lnk.nbs = s.dev.lnk.nbs)
      ∧ (Does .rxCouplingReport s fun e =>
          if f.typ ≠ mREPORT then e = settle s.dev
          else e.lnk.frames = t ∧ stays e ∧
            match entriesOf f 11 4 with
            | none => dropped e
            | some l =>
              let v := (l.map parseRep).filter fun x => x.2.1
              if known.isSome then taken e ∧ (nbOf e i).reps = mergeReps old.reps (v.map (·.1)) ∧ (nbOf e i).report = some s.dev.devLoop
                ∧ (nbOf e i).yields = mergeYields old.yields (v.map fun x => (x.1.centre, x.1.dir, x.2.2)) ∧ (nbOf e i).spans = old.spans
              else dropped e)
      ∧ (Does .rxGainYield s fun e =>
          if f.typ ≠ mYIELD then e = settle s.dev
          else e.lnk.frames = t ∧ stays e ∧
            match entriesOf f 9 5 with
            | none => dropped e
            | some l =>
              if known.isSome then taken e
                ∧ (nbOf e i).yields = mergeYields old.yields (l.map fun b => (beAt b 0 4, beAt b 4 1 % 2, s16 (beAt b 7 2)))
                ∧ (nbOf e i).spans = old.spans ∧ (nbOf e i).reps = old.reps
              else dropped e)
      ∧ (Does .rxAck s fun e =>
          if f.typ ≠ mACK then e = settle s.dev
          else e.lnk.frames = t ∧ stays e ∧
            if known.isSome then taken e ∧ (nbOf e i).noAck = false ∧ (nbOf e i).spans = old.spans ∧ (nbOf e i).reps = old.reps
              ∧ e.lnk.acks = s.dev.lnk.acks.filter fun m => ! decide (m.typ = mYIELD ∧ m.dst = f.src ∧ m.seq = beAt f.bytes 2 2)
            else dropped e)

/-- While the engine is powered: CIN_ESTIMATE_DONE of an existing pair whose estimate has run its length keeps C_IN,
the neighbour's density less the power sum of the densities received, or the bound where none was detected, up to 140
dB with its bound, and makes a NEW neighbour ACTIVE; of any other it changes nothing but the alarm outputs.
YIELD_EVAL_TIMER, with an identity, gives every pair with a known C_IN, of every neighbour in the table, the loop gain
LP = G_own - C_out + G_nb - C_in, with C_out and G_nb the neighbour's report's, or else C_in and its HELLO's gain;
where the engine is the higher identity and LP exceeds -LOOP_MARGIN, a T below the cap K becomes K, and where it is
the lower one K is 110 dB and nothing is owed. Without an identity no pair changes. The supply, device time, start-up,
trust and capture memory stay. (Cricket Link and the Repeater Fabric: The yield rule; Cricket Link and the Repeater
Fabric: Coupling from neighbour codes) -/
def Obligations.TheHigherIdentityYields : Prop :=
  ∀ s : State, Powered s →
    let stays (e : Dev) : Prop :=
      e.supply = s.dev.supply ∧ e.devLoop = s.dev.devLoop ∧ e.boot = s.dev.boot ∧ e.trust = s.dev.trust
    (∀ (l : Fin 16) (id : BitVec 14) (rows : List Int) (bound : Int), Does (.cinEstimateDone l id rows bound) s fun e =>
      match nbFind s.dev id.toNat with
      | none => e = settle s.dev
      | some i =>
        let b := nbOf s.dev i
        match spanFor s.dev b l with
        | none => e = settle s.dev
        | some sp =>
          if isPair s.dev b l = true
              ∧ max (pairOf b l).since (isoRt s.dev (lsnSeg s.dev l)).cut + cinTime s.dev l sp.len ≤ s.dev.devLoop + 1 then
            let c := if rows = [] then bound else sp.dens - psumC rows
            (pairOf (nbOf e i) l).cIn = some (min 2800 c) ∧ (pairOf (nbOf e i) l).boundIn = (decide (rows = []) || decide (2800 < c))
              ∧ (nbOf e i).state = (if b.state = nbNEW then nbACTIVE else b.state) ∧ stays e
          else e = settle s.dev)
    ∧ (Does .yieldEvalTimer s fun e => stays e ∧ (nodeId s.dev = 0 → e.lnk = s.dev.lnk)
        ∧ ((nbUsed s.dev).Nodup → nodeId s.dev ≠ 0 → ∀ i ∈ nbUsed s.dev, ∀ (l : Fin 16) (c : Int),
            let b := nbOf s.dev i
            isPair s.dev b l = true → (pairOf b l).cIn = some c →
            let rep := repFor s.dev b l
            let cOut := (rep.map (·.cIn)).getD c
            let gNb := ((rep.map (·.gf)).or ((spanFor s.dev b l).map (·.gf))).getD 0
            let lp := gfOf s.dev l - cOut + gNb - c
            let t := cOut + c - gNb - loopMargin s.dev
            (pairOf (nbOf e i) l).lp = some lp ∧ (pairOf (nbOf e i) l).cIn = some c
              ∧ (if b.id < nodeId s.dev ∨ rd s.dev pgLNK LNK.LNK_STAT_DUP_ID = 1 then
                  (pairOf (nbOf e i) l).owe = decide (-loopMargin s.dev < lp)
                    ∧ (-loopMargin s.dev < lp → t < (pairOf b l).k → (pairOf (nbOf e i) l).k = t)
                else (pairOf (nbOf e i) l).k = 2200 ∧ (pairOf (nbOf e i) l).owe = false)))

/-- While the engine is powered: PROT_CLIMB of a condition that is present and acts, is not latched, has a CLIMB
interval that has run, outside SAFE and above the ramp of START, raises its steps below TRIM_MAX at TRIM, else its
level below TOP, else leaves both; where it rises INT_RAW bit 1 is set. Where those modes hold, PROT_BACKOFF_EXPIRE
makes the restart of a back-off in its last period due at the next latch, and PROT_WATCH_EXPIRE ends a watch in its
last period with TRIES 0; both leave every other field of the condition, every register and every header.
DONOR_OVERLOAD_QUIET, once no cause has held for 1 s, ends a donor overload: one that acts at a level above NONE and
is not latched begins the back-off of its next try. In any other case each of these changes nothing but the alarm
outputs. NP_OPERATOR_OFF, NP_OPERATOR_ON and NP_RELEASE_LATCHED of a kind other than 3, for OPERATOR_OFF also of a
level other than 3, join the commands that wait for the next latch, behind those already there, where the protection
page is unlocked; else none joins and its ERROR is set. Of these three, no register changes and no condition or
operator level moves before the latch. The part, device time, mode, start-up, trust and loop contexts stay. (Network
Protection and Uplink Quieting: Levels of action; Network Protection and Uplink Quieting: Restart, back-off and
latching; Network Protection and Uplink Quieting: The conditions) -/
def Obligations.ConditionsClimbRunOutAndTakeCommands : Prop :=
  ∀ s : State, Powered s → (∀ (code : Fin 16) (idx : Fin 1024),
    let c := condOf s.dev code idx
    (Does (.protClimb code idx) s fun e =>
      if c.present = true ∧ c.wait = false ∧ c.latched = false ∧ rd s.dev pgESC (ESC.ESC_CLIMB code) ≠ 0
          ∧ npActs s.dev = true ∧ c.step + 320 * rd s.dev pgESC (ESC.ESC_CLIMB code) ≤ s.dev.devLoop + 1 then
        (if c.level = 1 ∧ c.steps < rd s.dev pgESC (ESC.ESC_TRIM_MAX code) then
          (condOf e code idx).level = 1 ∧ (condOf e code idx).steps = c.steps + 1 ∧ rawBit e pgNP 1 = true
        else if c.level < rd s.dev pgESC (ESC.ESC_TOP code) then
          (condOf e code idx).level = c.level + 1 ∧ (condOf e code idx).steps = c.steps ∧ rawBit e pgNP 1 = true
        else (condOf e code idx).level = c.level ∧ (condOf e code idx).steps = c.steps) ∧ SameCore s.dev e
      else e = settle s.dev)
    ∧ (Does (.protBackoffExpire code idx) s fun e =>
        if npActs s.dev = true ∧ (c.backoff = some 0 ∨ c.backoff = some 1) then
          condOf e code idx = { c with due := true, backoff := none }
            ∧ e.rep = s.dev.rep ∧ OnlyRegs s.dev e [] ∧ SameCore s.dev e
        else e = settle s.dev)
    ∧ (Does (.protWatchExpire code idx) s fun e =>
        if npActs s.dev = true ∧ (c.watch = some 0 ∨ c.watch = some 1) then
          condOf e code idx = { c with watch := none, tries := 0 }
            ∧ e.rep = s.dev.rep ∧ OnlyRegs s.dev e [] ∧ SameCore s.dev e
        else e = settle s.dev)
    ∧ (Does (.donorOverloadQuiet idx) s fun e =>
        let c := condOf s.dev 6 idx
        if c.present = true ∧ tget (fun _ => 0) s.dev.np.ovlLast idx + 32000 ≤ s.dev.devLoop + 1 then
          (if c.wait = false ∧ c.latched = false ∧ c.level ≠ 0 then
            condOf e 6 idx = { c with present := false, backoff := some (1920000 * 2 ^ (min (c.tries + 1) 7 - 1)), due := false }
          else (condOf e 6 idx).present = false ∧ (condOf e 6 idx).level = c.level ∧ (condOf e 6 idx).latched = c.latched)
            ∧ e.rep = s.dev.rep ∧ OnlyRegs s.dev e [] ∧ SameCore s.dev e
        else e = settle s.dev))
    ∧ ∀ (kind level : BitVec 2) (cond : Fin 16) (index : Fin 1024),
      Does (.npOperatorOff kind level index) s (fun e =>
        (if kind ≠ 3 ∧ level ≠ 3 ∧ Unlocked s.dev pgNP then
          e.np = { s.dev.np with cmds := s.dev.np.cmds ++ [(1, kind.toNat, level.toNat, 0, index.val)] } ∧ e.rep = s.dev.rep
        else e.np = s.dev.np ∧ (hdr e pgNP).error = true) ∧ OnlyRegs s.dev e [] ∧ SameCore s.dev e)
      ∧ Does (.npOperatorOn kind index) s (fun e =>
        (if kind ≠ 3 ∧ Unlocked s.dev pgNP then
          e.np = { s.dev.np with cmds := s.dev.np.cmds ++ [(2, kind.toNat, 0, 0, index.val)] } ∧ e.rep = s.dev.rep
        else e.np = s.dev.np ∧ (hdr e pgNP).error = true) ∧ OnlyRegs s.dev e [] ∧ SameCore s.dev e)
      ∧ Does (.npReleaseLatched kind cond index) s (fun e =>
        (if kind ≠ 3 ∧ Unlocked s.dev pgNP then
          e.np = { s.dev.np with cmds := s.dev.np.cmds ++ [(3, kind.toNat, 0, cond.val, index.val)] } ∧ e.rep = s.dev.rep
        else e.np = s.dev.np ∧ (hdr e pgNP).error = true) ∧ OnlyRegs s.dev e [] ∧ SameCore s.dev e)

/-- While the engine is powered: PATHLOSS_MEASURE of a group with NR_EN and a downlink segment on the donor port
stores RX; where REF_PWR is set and the clock is LOCKED, PL_UL becomes REF_PWR - RX + UL_CORR at this loop period and
is in force, and for the group's first donor port PL shows it; otherwise the stored value stays. PATHLOSS_HOLD_EXPIRE
of a value held for 600 s puts PL_MIN in force. In any other case both change nothing but the alarm outputs.
QUIET_SYMBOL_DECISION of an active uplink segment of another RAT than UMTS that is not gated stores FLOOR; a symbol
whose density exceeds FLOOR + ACT_TH clears IDLE_SLOTS and ends the idle drop, another counts at most one slot, and
with QUIET_EN the drop is in force once IDLE_SLOTS has reached N_IDLE, without it there is none; else it changes
nothing but the alarm outputs. NOISE_RISE_EVAL of an active uplink segment in a group with NR_EN, at least one donor
output port and a known floor stores CONTRIB as FLOOR + g - PL_UL + 10 log10 K, with the least PL_UL and the largest K
over the donor ports; a UMTS segment's FLOOR is the mean density; NOISE_RISE does not end while CONTRIB exceeds the
limit less 1 dB, nor before 1 s; else it changes nothing but the alarm outputs. The supply, device time, start-up,
trust and active segments stay. (Network Protection and Uplink Quieting: The uplink noise-rise cap; Network Protection
and Uplink Quieting: Uplink quieting; Network Protection and Uplink Quieting: Protection registers) -/
def Obligations.DonorPathLossAndUplinkActivityAreFollowed : Prop :=
  ∀ s : State, Powered s → (∀ (g : Fin 1024) (p : Fin 2),
    (∀ rx : Int, Does (.pathlossMeasure g p rx) s fun e =>
      if nrOn s.dev g = true ∧ plSegs s.dev g p ≠ [] then
        rdS e (pgGRP g) GRP.GRP_STAT_RX = clamp16 rx
          ∧ (if plReady s.dev g p = true then
              let loss := rdUS s.dev (pgGRP g) GRP.GRP_CFG_REF_PWR - rx + rdUS s.dev (pgGRP g) GRP.GRP_PL_UL_CORR
              plOf e g p = some ⟨loss, s.dev.devLoop, none, false⟩ ∧ plNow e g p = loss
                ∧ ((plPorts s.dev g).head? = some p.val → rdS e (pgGRP g) GRP.GRP_PL_PL = clamp16 loss)
            else plNow e g p = plNow s.dev g p)
          ∧ OnlyPages s.dev e [pgGRP g] ∧ SameCore s.dev e
      else e = settle s.dev)
    ∧ (Does (.pathlossHoldExpire g p) s fun e =>
        match plOf s.dev g p with
        | none => e = settle s.dev
        | some x =>
          match x.held with
          | none => e = settle s.dev
          | some t =>
            if plHeld s.dev g p = true ∧ t + 19200000 ≤ s.dev.devLoop + 1 then
              plNow e g p = rd s.dev pgNP NP.NP_NR_PL_MIN ∧ OnlyPages s.dev e [pgGRP g] ∧ SameCore s.dev e
            else e = settle s.dev))
    ∧ ∀ n : Fin 1024,
      let rat := rd s.dev (pgAIR (clockOf s.dev n)) AIR.SRC_CFG_RAT
      let p := pgNPS n
      (∀ dens floor : Int, Does (.quietSymbolDecision n dens floor) s fun e =>
        if isActive s.dev n = true ∧ isUplink s.dev n = true ∧ rat ≠ 1 ∧ isGated s.dev n = false then
          rdS e p NPS.NPS_QSTAT_FLOOR = clamp16 floor
          ∧ (if floor + rdU s.dev p NPS.NPS_QCFG_ACT_TH < dens then
              rd e p NPS.NPS_QSTAT_IDLE_SLOTS = 0 ∧ e.np.idle.contains n.val = false
            else
              (rd e p NPS.NPS_QSTAT_IDLE_SLOTS = rd s.dev p NPS.NPS_QSTAT_IDLE_SLOTS
                ∨ rd e p NPS.NPS_QSTAT_IDLE_SLOTS = min 255 (rd s.dev p NPS.NPS_QSTAT_IDLE_SLOTS + 1))
              ∧ e.np.idle.contains n.val = (rdUB s.dev p NPS.NPS_CFG_QUIET_EN
                  && (s.dev.np.idle.contains n.val || decide (rdU s.dev p NPS.NPS_CFG_N_IDLE ≤ rd e p NPS.NPS_QSTAT_IDLE_SLOTS))))
          ∧ e.supply = s.dev.supply ∧ e.devLoop = s.dev.devLoop ∧ e.act = s.dev.act ∧ e.boot = s.dev.boot ∧ e.trust = s.dev.trust
        else e = settle s.dev)
      ∧ (∀ mean : Int, Does (.noiseRiseEval n mean) s fun e =>
          let g := groupOf s.dev n
          let floor := if rat = 1 then mean else rdS s.dev p NPS.NPS_QSTAT_FLOOR
          match donorOuts s.dev n with
          | [] => e = settle s.dev
          | q :: t =>
            if isActive s.dev n = true ∧ isUplink s.dev n = true ∧ nrOn s.dev g = true ∧ floor ≠ -32768 then
              let pl := t.foldl (fun m r => min m (plNow s.dev g r)) (plNow s.dev g q)
              let c := floor + gainNow s.dev n - pl + logUnits (max 1 (maxOf ((q :: t).map (kOf s.dev g))))
              let lim := nrBase s.dev g + rd s.dev pgNP NP.NP_NR_NR_EXCESS
              rdS e p NPS.NPS_NOISE_CONTRIB = clamp16 c
                ∧ (rat = 1 → rdS e p NPS.NPS_QSTAT_FLOOR = clamp16 mean)
                ∧ ((condOf s.dev 4 n).present = true → lim - 20 < c ∨ tget (fun _ => none) s.dev.np.nrLow n = none →
                    (condOf e 4 n).present = true)
                ∧ e.supply = s.dev.supply ∧ e.devLoop = s.dev.devLoop ∧ e.act = s.dev.act ∧ e.boot = s.dev.boot ∧ e.trust = s.dev.trust
            else e = settle s.dev)

/-- While the engine is powered: TX_ENABLE on a locked page that would change EN sets ERROR and changes no register;
else it sets EN, clears BIAS_FAIL on a write from 0 to 1 and biases a chain that is OFF and that nothing else keeps
from starting. TX_BIAS_DONE of a chain in BIASING with its burst complete shows the current; within 20 % of the target
the gate is on and a chain whose target is READY or ON enters it; else it goes to OFF with BIAS_FAIL, INT_RAW bit 1
and the drain off. TX_STOP of a STOPPING chain ends a stop: RF and gate are off and the chain enters its target, or
waits for the drain to be switched off, which TX_DRAIN_OFF of a STOPPING chain at pinch-off does for a target of OFF;
of another target it enters that. BIAS_TRACK_UPDATE in READY and ON moves the current towards the calibrated one by at
most 2 %. In any other case each changes nothing but the alarm outputs. The part, device time, mode, start-up, trust
and loop contexts stay. (Transmit Chain, Linearization and Emission Control: Power amplifier states; Transmit Chain,
Linearization and Emission Control: Transmit registers) -/
def Obligations.ChainsStartAndStop : Prop :=
  ∀ (s : State) (p : Fin 4), Powered s →
    let tgt := txTarget s.dev p
    (Does (.txEnable p) s fun e =>
      if (hdr s.dev (pgTX p)).lock = true ∧ rd s.dev (pgTX p) TX.TX_CTRL_EN ≠ 1 then TurnedAway s.dev e (pgTX p)
      else rd e (pgTX p) TX.TX_CTRL_EN = 1
        ∧ (rd s.dev (pgTX p) TX.TX_CTRL_EN = 0 → rd e (pgTX p) TX.TX_STAT_BIAS_FAIL = 0)
        ∧ (rd s.dev (pgTX p) TX.TX_CTRL_EN = 0 ∨ rd s.dev (pgTX p) TX.TX_STAT_BIAS_FAIL = 0 → hwHold s.dev p = false →
            s.dev.mode ≠ .safe → monitorPassed s.dev = true → (chainRt s.dev p).load = 0 → txState s.dev p = txOFF →
              txState e p = txBIASING ∧ (chainRt e p).drain = true ∧ rawBit e (pgTX p) 0 = true)
        ∧ SameCore s.dev e)
    ∧ (Does (.txBiasDone p) s fun e =>
        match (chainRt s.dev p).idq with
        | none => e = settle s.dev
        | some sum =>
          if txState s.dev p = txBIASING then
            let want : Int := 1024 * rd s.dev (pgTX p) TX.BIAS_STAT_IDQ_TGT
            rd e (pgTX p) TX.BIAS_STAT_IDQ = (quot sum 1024).toNat % 65536
              ∧ (if 5 * (sum - want) ≤ want ∧ 5 * (want - sum) ≤ want then
                  (tgt = txREADY ∨ tgt = txON → txState e p = tgt ∧ (chainRt e p).gate = true)
                    ∧ rd e (pgTX p) TX.TX_STAT_BIAS_FAIL = rd s.dev (pgTX p) TX.TX_STAT_BIAS_FAIL
                else txState e p = txOFF ∧ rd e (pgTX p) TX.TX_STAT_BIAS_FAIL = 1 ∧ (chainRt e p).drain = false
                  ∧ (chainRt e p).gate = false ∧ rawBit e (pgTX p) 1 = true)
              ∧ SameCore s.dev e
          else e = settle s.dev)
    ∧ (Does (.txStop p) s fun e =>
        if txState s.dev p = txSTOPPING then
          (chainRt e p).gate = false ∧ (chainRt e p).rf = false
            ∧ txState e p = (if tgt = txOFF then txSTOPPING else if tgt = txON then txBIASING else tgt) ∧ SameCore s.dev e
        else e = settle s.dev)
    ∧ (Does (.txDrainOff p) s fun e =>
        if txState s.dev p = txSTOPPING ∧ (chainRt s.dev p).gate = false then
          txState e p = (if tgt = txON then txBIASING else tgt) ∧ (chainRt e p).rf = false ∧ rawBit e (pgTX p) 0 = true
            ∧ (tgt = txOFF → (chainRt e p).drain = false)
            ∧ OnlyPages s.dev e [pgTX p] ∧ SameCore s.dev e
        else e = settle s.dev)
    ∧ (∀ idq : BitVec 16, Does (.biasTrackUpdate p idq) s fun e =>
        let now := rd s.dev (pgTX p) TX.BIAS_STAT_IDQ
        if txState s.dev p = txREADY ∨ txState s.dev p = txON then
          rd e (pgTX p) TX.BIAS_STAT_IDQ = max (now - now * 2 / 100) (min (now + now * 2 / 100) idq.toNat) % 65536
            ∧ e.rep = s.dev.rep ∧ OnlyRegs s.dev e [(pgTX p, (TX.BIAS_STAT_IDQ).off)] ∧ SameCore s.dev e
        else e = settle s.dev)

/-- While the engine is powered: LOAD_MEASURE stores REFL; a measurement in ON at a forward power of 20 dBm or more
stores RL, and after ten below RL_WARN sets LOAD_WARN, after ten above RL_WARN + 1 dB clears it; the third in a row
below RL_TRIP sets INT_RAW bit 2, counts LOAD_TRIES up to 3, stops a chain that nothing silences, and marks it
LOAD_LATCHED where the count reaches 3, else LOAD_OFF; another changes no other register. LOAD_RETRY after 10 s in
LOAD_OFF and LOAD_RELEASE in LOAD_LATCHED end the load stop and bias a chain that nothing else keeps from starting;
LOAD_RELEASE, and LOAD_TRIES_RECOVER after 600 s in ON, set LOAD_TRIES to 0. On a locked page LOAD_RELEASE sets ERROR
and changes no register; in any other state each of these three changes nothing but the alarm outputs. The part,
device time, mode, start-up, trust and loop contexts stay. (Transmit Chain, Linearization and Emission Control: Load
supervision; Transmit Chain, Linearization and Emission Control: Power amplifier states) -/
def Obligations.LoadSupervisionStopsAndRetries : Prop :=
  ∀ (s : State) (p : Fin 4), Powered s →
    let c := chainRt s.dev p
    let tries := rd s.dev (pgTX p) TX.TX_STAT_LOAD_TRIES
    (∀ refl : Int, Does (.loadMeasure p refl) s fun e =>
      let rl := clamp16 (c.fwd - refl)
      let warn := rdS s.dev (pgTX p) TX.LOAD_CFG_RL_WARN
      let trips := if rl < rdS s.dev (pgTX p) TX.LOAD_CFG_RL_TRIP then c.tripRun + 1 else 0
      rdS e (pgTX p) TX.LOAD_STAT_REFL = clamp16 refl
        ∧ (if txState s.dev p = txON ∧ 400 ≤ c.fwd then
            rdS e (pgTX p) TX.LOAD_STAT_RL = rl
              ∧ rd e (pgTX p) TX.TX_STAT_LOAD_WARN = (if 10 ≤ (if rl < warn then c.lowRun + 1 else 0) then 1
                else if 10 ≤ (if warn + 20 < rl then c.clearRun + 1 else 0) then 0 else rd s.dev (pgTX p) TX.TX_STAT_LOAD_WARN)
              ∧ (if 3 ≤ trips then
                  rd e (pgTX p) TX.TX_STAT_LOAD_TRIES = min 3 (tries + 1)
                    ∧ (chainRt e p).load = (if 2 ≤ tries then 2 else 1)
                    ∧ rawBit e (pgTX p) 2 = true
                    ∧ (hwHold s.dev p = false → c.drain = true → txState e p = txSTOPPING)
                else (chainRt e p).tripRun = trips ∧ txState e p = txON ∧ (chainRt e p).load = c.load)
          else OnlyRegs s.dev e [(pgTX p, (TX.LOAD_STAT_REFL).off)])
        ∧ SameCore s.dev e)
    ∧ (Does (.loadRetry p) s fun e =>
        if txState s.dev p = txLOADOFF ∧ c.since + 320000 ≤ s.dev.devLoop + 1 then
          (chainRt e p).load = 0 ∧ (ChainFree s.dev p → txState e p = txBIASING) ∧ SameCore s.dev e
        else e = settle s.dev)
    ∧ (Does (.loadTriesRecover p) s fun e =>
        if txState s.dev p = txON ∧ c.since + 19200000 ≤ s.dev.devLoop + 1 then
          rd e (pgTX p) TX.TX_STAT_LOAD_TRIES = 0
            ∧ e.rep = s.dev.rep ∧ OnlyRegs s.dev e [(pgTX p, (TX.TX_STAT_LOAD_TRIES).off)] ∧ SameCore s.dev e
        else e = settle s.dev)
    ∧ (Does (.loadRelease p) s fun e =>
        if (hdr s.dev (pgTX p)).lock then TurnedAway s.dev e (pgTX p)
        else if txState s.dev p = txLOADLATCHED then
          (chainRt e p).load = 0 ∧ rd e (pgTX p) TX.TX_STAT_LOAD_TRIES = 0 ∧ (ChainFree s.dev p → txState e p = txBIASING)
            ∧ SameCore s.dev e
        else e = settle s.dev)

/-- While the engine is powered: a kept DPD_CAPTURE in ADAPT that is not frozen stores NMSE and prepares a revert to
the coefficients before the last update where it is more than 1 dB worse than the capture before it, else an update of
all 128 coefficients, and a capture after an update that is not reverted clears the run of reverts. DPD_UPDATE_APPLY
with no commit pending, once prepared coefficients are due, in ADAPT and not frozen, loads all 128 and counts UPDATES,
or for a revert REVERTS and the run of reverts, the third of which sets DIVERGED and INT_RAW bit 4. EM_SWEEP_START
begins a sweep, with a pending commit, of a chain in ON with EN 1 and the workload available. EM_SWEEP_DONE of a
running sweep stores the worst margin, counts SWEEPS, sets VALID and shows the violation, with INT_RAW bit 0, and
VCOUNT below CNT counts violations in a row. With a commit pending it takes the commit where every switch is in
transmit. In any other case each changes nothing but the alarm outputs. The part, device time, mode, start-up, trust
and loop contexts stay. (Transmit Chain, Linearization and Emission Control: Predistortion; Transmit Chain,
Linearization and Emission Control: Emission monitoring) -/
def Obligations.PredistortionAdaptsAndReverts : Prop :=
  ∀ (s : State) (p : Fin 4), Powered s →
    let c := chainRt s.dev p
    (∀ (nmse : Int) (kept : Bool) (ls : List (Int × Int)), Does (.dpdCapture p nmse kept ls) s fun e =>
      if dpdAdapts s.dev p = true ∧ frozen s.dev p = false ∧ kept = true then
        rdS e (pgTX p) TX.DPD_STAT_NMSE = clamp16 nmse ∧ (chainRt e p).nmse = some nmse ∧ (chainRt e p).judged = false
          ∧ (match c.judged, c.nmse with
            | true, some o =>
              if o + 20 < nmse then (chainRt e p).next = some (c.before, true)
              else rd e (pgTX p) TX.DPD_STAT_REVERT_RUN = 0
                ∧ (chainRt e p).next.any (fun x => decide (x.1.length = 128) && ! x.2) = true
            | _, _ => (chainRt e p).next.any (fun x => decide (x.1.length = 128) && ! x.2) = true)
          ∧ e.rep = s.dev.rep ∧ OnlyPages s.dev e [pgTX p] ∧ SameCore s.dev e
      else e = settle s.dev)
    ∧ (Does (.dpdUpdateApply p) s fun e =>
        if (hdr s.dev (pgTX p)).pending = true then
          (if slotsTx s.dev p = true then (hdr e (pgTX p)).pending = false ∧ SameCore s.dev e else e = settle s.dev)
        else match c.next with
          | none => e = settle s.dev
          | some (l, back) =>
            if dpdAdapts s.dev p = true ∧ frozen s.dev p = false ∧ c.nextAt ≤ s.dev.devLoop + 1 then
              (∀ i : Fin 128, reg e (pgTX p) (0x600 + 4 * i) = BitVec.ofNat 32 (l.getD i 0)) ∧ (chainRt e p).next = none
                ∧ (chainRt e p).judged = (! back)
                ∧ (if back = true then
                    rd e (pgTX p) TX.TX_CNT_REVERTS = min 65535 (rd s.dev (pgTX p) TX.TX_CNT_REVERTS + 1)
                      ∧ rd e (pgTX p) TX.DPD_STAT_REVERT_RUN = min 3 (rd s.dev (pgTX p) TX.DPD_STAT_REVERT_RUN + 1)
                      ∧ (2 ≤ rd s.dev (pgTX p) TX.DPD_STAT_REVERT_RUN →
                          rd e (pgTX p) TX.DPD_STAT_DIVERGED = 1 ∧ rawBit e (pgTX p) 4 = true)
                  else rd e (pgTX p) TX.TX_CNT_UPDATES = min 65535 (rd s.dev (pgTX p) TX.TX_CNT_UPDATES + 1)
                    ∧ rd e (pgTX p) TX.TX_CNT_REVERTS = rd s.dev (pgTX p) TX.TX_CNT_REVERTS)
                ∧ OnlyPages s.dev e [pgTX p] ∧ SameCore s.dev e
            else e = settle s.dev)
    ∧ (Does (.emSweepStart p) s fun e =>
        if txState s.dev p = txON ∧ rd s.dev (pgEMK p) EMK.EM_CFG_EN = 1 ∧ rd s.dev (pgEMK p) EMK.EM_STAT_UNAVAILABLE = 0 then
          (chainRt e p).sweeping = true ∧ (hdr e (pgEMK p)).pending = false ∧ OnlyPages s.dev e [pgEMK p] ∧ SameCore s.dev e
        else e = settle s.dev)
    ∧ (∀ (margin : Option Int) (freq : Word), Does (.emSweepDone p margin freq) s fun e =>
        if c.sweeping = true then
          let viol := match margin with | some m => decide (m < - rdS s.dev (pgEMK p) EMK.EM_LVL_TOL) | none => false
          let n := if viol then min 15 (rd s.dev (pgEMK p) EMK.EM_STAT_VCOUNT + 1) else 0
          rdS e (pgEMK p) EMK.EM_STAT_MARGIN = clamp16 (margin.getD (-32768)) ∧ rd e (pgEMK p) EMK.EM_STAT_VIOL = b2n viol
            ∧ (txState s.dev p = txON → rd e (pgEMK p) EMK.EM_STAT_VALID = 1)
            ∧ rd e (pgEMK p) EMK.EM_STAT_SWEEPS = (rd s.dev (pgEMK p) EMK.EM_STAT_SWEEPS + 1) % 256
            ∧ (margin.isSome = true → rd e (pgEMK p) EMK.EM_WORST_FREQ = freq.toNat)
            ∧ (viol = true → rawBit e (pgEMK p) 0 = true)
            ∧ (n < rd s.dev (pgEMK p) EMK.EM_CFG_CNT → rd e (pgEMK p) EMK.EM_STAT_VCOUNT = n)
            ∧ (chainRt e p).sweeping = false ∧ SameCore s.dev e
        else e = settle s.dev)

/-- While the engine is powered: EXT_ENABLE writes EN, and a disable takes a link that is not looped DOWN;
EXT_SIGNAL_CHANGE stores the module's signals and powers, and a loss of signal takes a link that is not looped DOWN;
EXT_BLOCK_LOCK of a link with a signal sets BLOCK_LOCK and trains a link that is DOWN; EXT_BLOCK_LOCK_LOSS of a locked
link takes it DOWN, and a looped one to TRAINING, each without block and frame lock. EXT_FRAME_LOCK, of the engine's
receiver with block lock, records the lock, and a TRAINING link that is not looped, with both locks, accepted
capabilities and a round trip, is ALIGNED, or RUNNING with RUN_EN and a fibre not too long; EXT_FRAME_LOCK_LOSS and
EXT_RETRAIN return an ALIGNED or RUNNING link to TRAINING; EXT_RUN_ENABLE writes RUN_EN and takes an ALIGNED link to
RUNNING and back. On a locked page EXT_RETRAIN, and an EXT_ENABLE or EXT_RUN_ENABLE that would change its bit, set
ERROR and change no register. In any other case each changes nothing but the alarm outputs. The part, device time,
mode, start-up, trust and loop contexts stay. (Extension Ports and the Vilson Link: Link states; Extension Ports and
the Vilson Link: Extension registers; Extension Ports and the Vilson Link: The basic frame) -/
def Obligations.LinksFollowTheirLocks : Prop :=
  ∀ (s : State) (k : Fin 4), Powered s →
    let p := pgEXT k
    let st := exState s.dev k
    let run (n : Nat) : Nat := if n = exALIGNED ∧ rd s.dev p EXT.EXT_STAT_FIBRE_LONG = 0 then extRUNNING else n
    let retrained : Nat := if exALIGNED ≤ st then exTRAINING else st
    (∀ en : Bool, Does (.extEnable k en) s fun e =>
      if (hdr s.dev p).lock = true ∧ rd s.dev p EXT.EXT_CTRL_EN ≠ b2n en then TurnedAway s.dev e p
      else rd e p EXT.EXT_CTRL_EN = b2n en
        ∧ (if en = true ∨ looped s.dev k = true then exState e k = st
          else exState e k = exDOWN ∧ rd e p EXT.EXT_STAT_BLOCK_LOCK = 0 ∧ rd e p EXT.EXT_STAT_FRAME_LOCK = 0 ∧ (extRt e k).headLock = false)
        ∧ SameCore s.dev e)
    ∧ (∀ en : Bool, Does (.extRunEnable k en) s fun e =>
      if (hdr s.dev p).lock = true ∧ rd s.dev p EXT.EXT_CTRL_RUN_EN ≠ b2n en then TurnedAway s.dev e p
      else rd e p EXT.EXT_CTRL_RUN_EN = b2n en
        ∧ exState e k = (if en = true then run st else if st = extRUNNING then exALIGNED else st) ∧ SameCore s.dev e)
    ∧ (Does (.extRetrain k) s fun e =>
      if (hdr s.dev p).lock = true then TurnedAway s.dev e p
      else if exALIGNED ≤ st then exState e k = exTRAINING ∧ rd e p EXT.EXT_STAT_CAPS_OK = 0 ∧ rawBit e p 0 = true ∧ SameCore s.dev e
      else e = settle s.dev)
    ∧ (∀ (present los txFault : Bool) (rxPwr txPwr : Int), Does (.extSignalChange k present los txFault rxPwr txPwr) s fun e =>
      rd e p EXT.EXT_STAT_MOD_PRESENT = b2n present ∧ rd e p EXT.EXT_STAT_LOS = b2n los ∧ rd e p EXT.EXT_STAT_TX_FAULT = b2n txFault
        ∧ rdS e p EXT.SFP_DDM_RX_PWR = clamp16 rxPwr ∧ rdS e p EXT.SFP_DDM_TX_PWR = clamp16 txPwr
        ∧ (if (los = true ∨ present = false) ∧ looped s.dev k = false then
            exState e k = exDOWN ∧ rd e p EXT.EXT_STAT_BLOCK_LOCK = 0 ∧ rd e p EXT.EXT_STAT_FRAME_LOCK = 0 ∧ (extRt e k).headLock = false
          else exState e k = st) ∧ SameCore s.dev e)
    ∧ (Does (.extBlockLock k) s fun e =>
      if extSignalOk s.dev k = true then
        rd e p EXT.EXT_STAT_BLOCK_LOCK = 1 ∧ exState e k = (if st = exDOWN then exTRAINING else st) ∧ SameCore s.dev e
      else e = settle s.dev)
    ∧ (Does (.extBlockLockLoss k) s fun e =>
        if rd s.dev p EXT.EXT_STAT_BLOCK_LOCK = 1 then
          exState e k = (if looped s.dev k = true then exTRAINING else exDOWN) ∧ rd e p EXT.EXT_STAT_BLOCK_LOCK = 0
            ∧ rd e p EXT.EXT_STAT_FRAME_LOCK = 0 ∧ (extRt e k).headLock = false ∧ SameCore s.dev e
        else e = settle s.dev)
    ∧ (∀ head : Bool, Does (.extFrameLock k head) s fun e =>
        if head = true ∨ rd s.dev p EXT.EXT_STAT_BLOCK_LOCK = 1 then
          (if head = true then (extRt e k).headLock = true else rd e p EXT.EXT_STAT_FRAME_LOCK = 1)
            ∧ exState e k = (let up := if st = exTRAINING ∧ looped s.dev k = false ∧ rd s.dev p EXT.EXT_STAT_CAPS_OK = 1
                    ∧ (extRt s.dev k).rtts ≠ []
                    ∧ (if head = true then rd s.dev p EXT.EXT_STAT_FRAME_LOCK = 1 else (extRt s.dev k).headLock = true)
                  then exALIGNED else st
                if rd s.dev p EXT.EXT_CTRL_RUN_EN = 1 then run up else up)
            ∧ SameCore s.dev e
        else e = settle s.dev)
    ∧ (∀ head : Bool, Does (.extFrameLockLoss k head) s fun e =>
        (if head = true then (extRt e k).headLock = false else rd e p EXT.EXT_STAT_FRAME_LOCK = 0)
          ∧ exState e k = retrained ∧ (exALIGNED ≤ st → rd e p EXT.EXT_STAT_CAPS_OK = 0 ∧ rawBit e p 0 = true) ∧ SameCore s.dev e)

/-- While the engine is powered: EXT_FRAME_RX on a link with block lock counts a missing marker in MARKER_MISS, a
header whose CRC fails in HDR_CRC and bad rows in BAD_ROWS, whose first ones set INT_RAW bit 5; the fourth marker in a
row gives frame lock, the third missing one in a row loses it and trains an ALIGNED or RUNNING link. Where it does not
train, a good header's acknowledgement takes the acknowledged fragments from those that wait; a good fragment with
data that follows the last one in order, or is the first, joins the message being received, and any other is dropped.
Without block lock nothing but the alarm outputs changes. CTRL_FRAG_TIMEOUT of a fragment that waits and was sent
three loop periods ago or earlier counts CTRL_RETX and the fragment's repeat, which awaits its frame, and after the
eighth repeat sets CTRL_FAIL and INT_RAW bit 4, drops the fragments and trains an ALIGNED or RUNNING link; of any
other it changes nothing but the alarm outputs. The part, device time, mode, start-up, trust and loop contexts stay.
(Extension Ports and the Vilson Link: The basic frame; Extension Ports and the Vilson Link: Control channel; Extension
Ports and the Vilson Link: Link states) -/
def Obligations.FramesAreCountedAndFragmentsRepeated : Prop :=
  ∀ (s : State) (k : Fin 4), Powered s →
    let p := pgEXT k
    let x := extRt s.dev k
    (∀ (marker : Bool) (hdr : BitVec 224) (crc : BitVec 32) (frag : List Byte) (bad : Nat),
      Does (.extFrameRx k marker hdr crc frag bad) s fun e =>
        let head := hdr ++ crc
        if rd s.dev p EXT.EXT_STAT_BLOCK_LOCK = 1 then
          rd e p EXT.LINK_CNT0_MARKER_MISS = (if marker = true then rd s.dev p EXT.LINK_CNT0_MARKER_MISS
              else min 65535 (rd s.dev p EXT.LINK_CNT0_MARKER_MISS + 1))
            ∧ rd e p EXT.LINK_CNT1_HDR_CRC = (if headOk head = true then rd s.dev p EXT.LINK_CNT1_HDR_CRC
              else min 65535 (rd s.dev p EXT.LINK_CNT1_HDR_CRC + 1))
            ∧ rd e p EXT.LINK_CNT0_BAD_ROWS = min 65535 (rd s.dev p EXT.LINK_CNT0_BAD_ROWS + bad)
            ∧ (rd s.dev p EXT.LINK_CNT0_BAD_ROWS = 0 → bad ≠ 0 → rawBit e p 5 = true)
            ∧ rd e p EXT.EXT_STAT_FRAME_LOCK = (if marker = true ∧ 3 ≤ x.marks then 1 else if marker = false ∧ 2 ≤ x.missed then 0
                else rd s.dev p EXT.EXT_STAT_FRAME_LOCK)
            ∧ (if marker = false ∧ 2 ≤ x.missed ∧ exALIGNED ≤ exState s.dev k then exState e k = exTRAINING ∧ (extRt e k).unacked = []
              else (extRt e k).unacked = (match headOk head, headAck head with
                | true, some a => fragAck x.unacked a
                | _, _ => x.unacked)
              ∧ (match fragOf (frag.map BitVec.toNat) with
                | some (q, first, _, b) =>
                  if x.rxSeq.all (fun o => decide (q = (o + 1) % 4096)) = true then
                    (extRt e k).rxSeq = some q ∧ (extRt e k).rxMsg = (if first then [] else x.rxMsg) ++ b
                  else (extRt e k).rxSeq = x.rxSeq ∧ (extRt e k).rxMsg = x.rxMsg
                | none => (extRt e k).rxSeq = x.rxSeq ∧ (extRt e k).rxMsg = x.rxMsg))
            ∧ SameCore s.dev e
        else e = settle s.dev)
    ∧ (∀ q : BitVec 12, Does (.ctrlFragTimeout k q) s fun e =>
        match x.unacked.find? (fun u => decide (u.seq = q.toNat)) with
        | none => e = settle s.dev
        | some u =>
          match u.sent with
          | none => e = settle s.dev
          | some t =>
            if t + 3 ≤ s.dev.devLoop then
              (if u.resends < 8 then
                rd e p EXT.LINK_CNT1_CTRL_RETX = min 65535 (rd s.dev p EXT.LINK_CNT1_CTRL_RETX + 1)
                  ∧ (extRt e k).unacked = x.unacked.map (fun v => if v.seq = q.toNat then ⟨v.seq, v.data, v.resends + 1, none⟩ else v)
                  ∧ exState e k = exState s.dev k
              else rd e p EXT.EXT_STAT_CTRL_FAIL = 1 ∧ rawBit e p 4 = true ∧ (extRt e k).unacked = []
                ∧ exState e k = (if exALIGNED ≤ exState s.dev k then exTRAINING else exState s.dev k))
                ∧ SameCore s.dev e
            else e = settle s.dev)

/-- While the engine is powered: RX_CAPS on a link that is not DOWN takes an acceptable record whole with the head's
delays and clears CAPS_REFUSED, with CAPS_OK where the link is not RUNNING, and leaves the record of a refused one,
setting CAPS_REFUSED and INT_RAW bit 1. RX_ALARM shows the live bits, latches each bit that rises, and sets INT_RAW
bit 3 for it; no other register changes. RX_STATUS and RX_ECHO_TIME are kept. EXT_RTT_MEASURE after an ECHO_TIME, on a
link that is not DOWN, averages the last 16 round trips into ONE_WAY; above 100.00 us it sets FIBRE_LONG with INT_RAW
bit 2 and the link does not stay RUNNING, and 16 in a row at or below 99.00 us clear it. CAPS_DATA_READ returns
CAPS_DATA and moves IDX on, wrapping at 48. In any other case each changes nothing but the alarm outputs. The part,
device time, mode, start-up, trust and loop contexts stay. (Extension Ports and the Vilson Link: Control channel;
Extension Ports and the Vilson Link: Round-trip delay and fibre length; Extension Ports and the Vilson Link: Extension
registers) -/
def Obligations.HeadsReportThroughTheLink : Prop :=
  ∀ (s : State) (k : Fin 4), Powered s →
    let p := pgEXT k
    let x := extRt s.dev k
    (∀ (words : List Word) (crc : Word), Does (.rxCaps k words crc) s fun e =>
      let w := words ++ [crc]
      if exState s.dev k = exDOWN then e = settle s.dev
      else (if capsOk (w.map BitVec.toNat) = true then
        (extRt e k).caps = (w.map BitVec.toNat).take 48 ∧ rd e p EXT.EXT_STAT_CAPS_REFUSED = 0
          ∧ (exState s.dev k ≠ extRUNNING → rd e p EXT.EXT_STAT_CAPS_OK = 1)
          ∧ rd e p EXT.HEAD_DLY_A_H_TX = (w.map BitVec.toNat).getD 8 0 / 65536 ∧ rd e p EXT.HEAD_DLY_A_H_RX = (w.map BitVec.toNat).getD 8 0 % 65536
          ∧ rd e p EXT.HEAD_DLY_B_H_TX = (w.map BitVec.toNat).getD 27 0 / 65536 ∧ rd e p EXT.HEAD_DLY_B_H_RX = (w.map BitVec.toNat).getD 27 0 % 65536
      else (extRt e k).caps = x.caps ∧ rd e p EXT.EXT_STAT_CAPS_REFUSED = 1 ∧ rawBit e p 1 = true
        ∧ rd e p EXT.EXT_STAT_CAPS_OK = rd s.dev p EXT.EXT_STAT_CAPS_OK ∧ exState e k = exState s.dev k) ∧ SameCore s.dev e)
    ∧ (∀ b : BitVec 16, Does (.rxAlarm k b) s fun e =>
        rd e p EXT.HEAD_ALM_LIVE = b.toNat
          ∧ (∀ i : Fin 16, nbit (rd e p EXT.HEAD_ALM_LATCH) i = (nbit (rd s.dev p EXT.HEAD_ALM_LATCH) i
              || (nbit b.toNat i && ! nbit (rd s.dev p EXT.HEAD_ALM_LIVE) i))
            ∧ (nbit b.toNat i = true → nbit (rd s.dev p EXT.HEAD_ALM_LIVE) i = false → rawBit e p 3 = true))
          ∧ OnlyRegs s.dev e [(p, (EXT.HEAD_ALM_LIVE).off)] ∧ SameCore s.dev e)
    ∧ (∀ a b : BitVec 16 × BitVec 16 × BitVec 16, Does (.rxStatus k a b) s fun e =>
        extRt e k = { x with status := [(a.1.toNat, a.2.1.toNat, a.2.2.toNat), (b.1.toNat, b.2.1.toNat, b.2.2.toNat)] }
          ∧ e.rep = s.dev.rep ∧ OnlyRegs s.dev e [] ∧ SameCore s.dev e)
    ∧ (∀ t : Word, Does (.rxEchoTime k t) s fun e =>
        extRt e k = { x with tHead := some t.toNat } ∧ e.rep = s.dev.rep ∧ OnlyRegs s.dev e [] ∧ SameCore s.dev e)
    ∧ (∀ t : Word, Does (.extRttMeasure k t) s fun e =>
        match x.tHead with
        | none => e = settle s.dev
        | some h =>
          if exState s.dev k = exDOWN then e = settle s.dev
          else
            let l := (((t.toNat : Int) - h - Config.extCal k) :: x.rtts).take 16
            let one := (quot (l.foldl (· + ·) 0) (2 * l.length)).toNat
            (extRt e k).rtts = l ∧ (extRt e k).tHead = none ∧ rd e p EXT.FIBRE_ONE_WAY = one % 4294967296
              ∧ rd e p EXT.EXT_STAT_FIBRE_LONG = (if rd s.dev p EXT.EXT_STAT_FIBRE_LONG = 0 then (if 1000000 < one then 1 else 0)
                  else if one ≤ 990000 ∧ 15 ≤ x.calm then 0 else 1)
              ∧ (rd e p EXT.EXT_STAT_FIBRE_LONG = 1 → exState e k ≠ extRUNNING)
              ∧ (rd s.dev p EXT.EXT_STAT_FIBRE_LONG = 0 → 1000000 < one → rawBit e p 2 = true)
              ∧ SameCore s.dev e)
    ∧ (Does (.capsDataRead k) s fun e =>
        e.rep.out = .readWord p 0x70 (peek s.dev p 0x70) :: s.dev.rep.out
          ∧ rd e p EXT.CAPS_IDX_IDX = (if rd s.dev p EXT.CAPS_IDX_IDX < 47 then rd s.dev p EXT.CAPS_IDX_IDX + 1 else 0)
          ∧ e.rep.hdr = s.dev.rep.hdr ∧ OnlyRegs s.dev e [(p, (EXT.CAPS_IDX_IDX).off)] ∧ SameCore s.dev e)

/-- While the engine is powered: MON_CONVERSION_DONE of a service slot, a burst or the sequence writes each channel's
result word to RES, in a format and with the value of Table 12.3; for a service slot and the sequence the word also
holds the slot or entry, channel, class, SVC, over-range, recovery and, for the sequence, FIRST on the entry's first
conversion. Over-range readings count in OVR_EVENTS and flag the next conversion. A service slot gives way to the next
of the 14. A burst adds a conversion that is clean on both converters to the burst in progress. With STORE 1 both
words of the sequence enter a ring with room, MON0's first, and are counted as DROPPED with INT_RAW bit 0 where it is
full; otherwise the ring stays. With nothing converting nothing but the alarm outputs changes. MON_RING_READ returns
and removes the oldest result, 0 from an empty ring, and LEVEL follows. The part, device time, mode, start-up, trust
and loop contexts stay. (Monitor Converters: Result classes; Monitor Converters: Service slots and bursts; Monitor
Converters: Conversion, over-range and recovery) -/
def Obligations.ConversionsStoreTheirResults : Prop :=
  ∀ s : State, Powered s →
    let m := s.dev.mon
    let value (ch fmt : Nat) (x : Reading) : Nat :=
      if fmt = 1 then readCode x else if fmt = 2 then 4 * readCode x else if fmt = 3 then (readCode x + 57344) % 65536
      else if fmt = 4 then (4 * readCode x + 32768) % 65536 else monValue s.dev ch fmt (readCode x)
    let word (v entry ch fmt svc past recov first : Nat) : Nat :=
      v * 65536 + entry % 64 * 1024 + ch * 32 + (if fmt = 0 then 16 else 0) + svc * 8 + past * 4 + recov * 2 + first
    let both (e : Dev) (c : (Nat × Nat) × (Nat × Nat)) (entry svc first : Nat) (x0 x1 : Reading) : Prop :=
      rd e pgMRES (MRES.RES_RESULT c.1.1)
          = word (value c.1.1 c.1.2 x0) entry c.1.1 c.1.2 svc (b2n (readOver x0)) (b2n m.rec0) first
        ∧ rd e pgMRES (MRES.RES_RESULT c.2.1)
          = word (value c.2.1 c.2.2 x1) entry c.2.1 c.2.2 svc (b2n (readOver x1)) (b2n m.rec1) first
    let store := rd s.dev pgMSEQ (MSEQ.SEQ_B_STORE m.entry)
    (∀ (x0 x1 : Reading) (lag : Nat), Does (.monConversionDone x0 x1 lag) s fun e =>
      if m.cur = .none then e = settle s.dev
      else (match m.cur, m.bursts.find? (fun b => decide (b.n < 256)) with
        | .svc, _ => both e (slotPair m.slot) m.slot 1 0 x0 x1 ∧ e.mon.slot = (m.slot + 1) % 14 ∧ e.mon.due = m.due - 1 ∧ e.mon.ring = m.ring
        | .seq, _ =>
          let c := entryPair s.dev m.entry
          both e c m.entry 0 (if m.made = 0 then 1 else 0) x0 x1
            ∧ (if store = 0 ∨ 1024 ≤ m.ring.length then e.mon.ring = m.ring
              else if m.ring.length ≤ 1022 then
                e.mon.ring = m.ring ++ [rd e pgMRES (MRES.RES_RESULT c.1.1), rd e pgMRES (MRES.RES_RESULT c.2.1)]
              else e.mon.ring = m.ring ++ [rd e pgMRES (MRES.RES_RESULT c.1.1)])
            ∧ (store = 1 → 1024 ≤ m.ring.length →
                rd e pgMON MON.RING_STAT_DROPPED = min 65535 (rd s.dev pgMON MON.RING_STAT_DROPPED + 2) ∧ rawBit e pgMON 0 = true)
        | .burst, some b =>
          let c := burstPair b.who
          (c.1.1 < 14 → c.2.1 < 32 → rd e pgMRES (MRES.RES_RESULT c.1.1) / 65536 = value c.1.1 c.1.2 x0
              ∧ rd e pgMRES (MRES.RES_RESULT c.2.1) / 65536 = value c.2.1 c.2.2 x1)
            ∧ e.mon.bursts = (if readOver x0 || readOver x1 || m.rec0 || m.rec1 then m.bursts
                else burstCount m.bursts (corrected14 s.dev c.1.1 (readCode x0))) ∧ e.mon.ring = m.ring
        | _, _ => e.mon.ring = m.ring)
        ∧ (m.cur ≠ .burst ∨ (m.bursts.any fun b => decide (b.n < 256)) = true →
            e.mon.rec0 = readOver x0 ∧ e.mon.rec1 = readOver x1
            ∧ rd e pgMON MON.MON_CNT_OVR_EVENTS
              = min 65535 (rd s.dev pgMON MON.MON_CNT_OVR_EVENTS + b2n (readOver x0) + b2n (readOver x1)))
        ∧ SameCore s.dev e)
    ∧ (Does .monRingRead s fun e =>
        e.rep.out = .readWord pgMON 0x50 (peek s.dev pgMON 0x50) :: s.dev.rep.out ∧ e.mon.ring = m.ring.drop 1
          ∧ rd e pgMON MON.RING_STAT_LEVEL = (m.ring.length - 1) % 2048 ∧ e.rep.hdr = s.dev.rep.hdr ∧ SameCore s.dev e)

/-- While the engine is powered: MON_ENABLE from 0 to 1, with no stop outstanding, begins at entry 0, which converts
or waits for its trigger, and with one asks for a new beginning in its place; from 1 to 0 it stops the sequence at
once where nothing converts, else asks for the stop, and takes a pending commit; the same value changes nothing of the
sequence. MON_RESTART of a running sequence begins again at entry 0 where nothing converts, else asks for it; of a
stopped one it changes nothing but the alarm outputs. On a locked page MON_RESTART, and a MON_ENABLE that would change
EN, set ERROR and change no register. MON_ENTRY_DELAY_END in a delay with neither asked for leads to the next entry,
where no commit is pending, from the last to entry 0 with PASSES one more; in any other phase it changes nothing but
the alarm outputs. MON_SERVICE_SLOT makes one more insertion due, which idle converters take at once unless a
triggered entry is to convert. The part, device time, mode, start-up, trust and loop contexts stay. (Monitor
Converters: The sequence; Monitor Converters: Service slots and bursts) -/
def Obligations.TheSequenceStepsThroughItsEntries : Prop :=
  ∀ s : State, Powered s →
    let m := s.dev.mon
    let begun (e : Dev) (n : Nat) : Prop := e.mon.entry = n ∧ e.mon.made = 0
      ∧ e.mon.phase = (if rd e pgMSEQ (MSEQ.SEQ_B_TRIG n) = 0 then .convert else .wait)
    (∀ en : Bool, Does (.monEnable en) s fun e =>
      let was := rd s.dev pgMON MON.MON_CTRL_EN
      if (hdr s.dev pgMON).lock = true ∧ was ≠ b2n en then TurnedAway s.dev e pgMON
      else rd e pgMON MON.MON_CTRL_EN = b2n en
        ∧ (if was = b2n en then e.mon = m
          else if en = true then (if m.stop = true then e.mon = { m with stop := false, restart := true } else begun e 0)
          else (hdr e pgMSEQ).pending = false
            ∧ (if m.cur = .none then e.mon.phase = .stopped else e.mon.stop = true ∧ e.mon.restart = false)) ∧ SameCore s.dev e)
    ∧ (Does .monRestart s fun e =>
        if (hdr s.dev pgMON).lock = true then TurnedAway s.dev e pgMON
        else if m.phase = .stopped ∨ m.stop = true then e = settle s.dev
        else (if m.cur = .none then begun e 0 ∧ e.mon.restart = false else e.mon = { m with restart := true }) ∧ SameCore s.dev e)
    ∧ (Does .monEntryDelayEnd s fun e =>
        if m.phase = .delay then
          (m.stop = false → m.restart = false →
            if rd s.dev pgMSEQ MSEQ.SEQ_CFG_LAST ≤ m.entry then
              begun e 0 ∧ rd e pgMON MON.MON_STAT_PASSES = (rd s.dev pgMON MON.MON_STAT_PASSES + 1) % 65536
            else ((hdr s.dev pgMSEQ).pending = false → begun e (m.entry + 1))
              ∧ rd e pgMON MON.MON_STAT_PASSES = rd s.dev pgMON MON.MON_STAT_PASSES) ∧ SameCore s.dev e
        else e = settle s.dev)
    ∧ (Does .monServiceSlot s fun e =>
        e.mon.due = m.due + 1 ∧ (m.cur = .none → m.phase ≠ .convert ∨ m.trig = false → e.mon.cur = .svc) ∧ SameCore s.dev e)

/-- While the engine is powered: MON_BURST_DONE of the oldest burst with its 256 conversions hands a chain its sum,
keeps a zero reading, or ends a full-scale one ACCEPTED with INT_RAW bit 1, or REJECTED with bit 2 where the span is
not positive, the gain is outside 0.9 to 1.1 or the offset outside 512 codes. MON_BURST_TIMEOUT ends an incomplete
one: a chain in BIASING is OFF with BIAS_FAIL, a calibration FAILED with bit 2. With no such burst both change nothing
but the alarm outputs. MON_CAL_ZERO in TEST asks for the zero reading of its channel, or changes nothing but the alarm
outputs while a reading runs; MON_CAL_FULL_SCALE after it asks for the full scale; outside TEST, out of turn or on a
locked page they set ERROR and change no register. MON_CAL_SAVE_DONE puts an accepted calibration into CORR, and with
none changes nothing but the alarm outputs. The part, device time, mode, start-up, trust and loop contexts stay.
(Monitor Converters: Service slots and bursts; Monitor Converters: System calibration; Transmit Chain, Linearization
and Emission Control: Power amplifier states) -/
def Obligations.BurstsAndCalibrationsEnd : Prop :=
  ∀ s : State, Powered s →
    let m := s.dev.mon
    (Does .monBurstDone s fun e =>
      match m.bursts with
      | [] => e = settle s.dev
      | b :: t =>
        if b.n < 256 then e = settle s.dev
        else (match b.who with
          | .chain p => (chainRt e p).idq = some (b.sum : Int)
          | .zero ch => rd e pgMON MON.CAL_STAT_STATE = 2 ∧ e.mon.zero = some (ch, b.sum)
              ∧ rd e pgMON MON.CAL_STAT_MEAN = (quot b.sum 128).toNat % 65536
          | .full ch =>
            match m.zero with
            | none => e.mon.save = m.save
            | some z =>
              let span : Int := (b.sum : Int) - z.2
              let off : Int := (z.2 : Int) - 2097152
              let num : Int := (rd s.dev pgMON MON.CAL_VFS_V_CAL : Int) * 256000000
              if span ≤ 0 ∨ num * 10 < span * 305176 * 9 ∨ span * 305176 * 11 < num * 10 ∨ off < -131072 ∨ 131072 < off then
                rd e pgMON MON.CAL_STAT_STATE = 4 ∧ rawBit e pgMON 2 = true ∧ e.mon.save = m.save
              else rd e pgMON MON.CAL_STAT_STATE = 3 ∧ rawBit e pgMON 1 = true ∧ e.mon.save.map (·.1) = some ch)
          ∧ e.mon.bursts = t ∧ SameCore s.dev e)
    ∧ (Does .monBurstTimeout s fun e =>
        match m.bursts with
        | [] => e = settle s.dev
        | b :: t =>
          if 256 ≤ b.n then e = settle s.dev
          else (match b.who with
            | .chain p => if txState s.dev p = txBIASING then
                txState e p = txOFF ∧ rd e (pgTX p) TX.TX_STAT_BIAS_FAIL = 1 ∧ rawBit e (pgTX p) 1 = true
              else OnlyRegs s.dev e []
            | .zero _ => rd e pgMON MON.CAL_STAT_STATE = 5 ∧ rawBit e pgMON 2 = true ∧ e.mon.zero = none
            | .full _ => rd e pgMON MON.CAL_STAT_STATE = 5 ∧ rawBit e pgMON 2 = true ∧ e.mon.zero = none)
            ∧ e.mon.bursts = t ∧ SameCore s.dev e)
    ∧ (∀ ch : Fin 2, Does (.monCalZero ch) s fun e =>
        if (hdr s.dev pgMON).lock = true ∨ s.dev.mode ≠ .test then TurnedAway s.dev e pgMON ∧ e.mon = m
        else if rd s.dev pgMON MON.CAL_STAT_STATE = 1 then e = settle s.dev
        else rd e pgMON MON.CAL_STAT_STATE = 1 ∧ rd e pgMON MON.CAL_STAT_CH = ch ∧ e.mon.zero = none
          ∧ e.mon.bursts.getLast? = some ⟨.zero ch, 0, 0⟩ ∧ SameCore s.dev e)
    ∧ (∀ ch : Fin 2, Does (.monCalFullScale ch) s fun e =>
        if (hdr s.dev pgMON).lock = false ∧ s.dev.mode = .test ∧ rd s.dev pgMON MON.CAL_STAT_STATE = 2
            ∧ rd s.dev pgMON MON.CAL_STAT_CH = ch then
          rd e pgMON MON.CAL_STAT_STATE = 1 ∧ e.mon.zero = m.zero ∧ e.mon.bursts.getLast? = some ⟨.full ch, 0, 0⟩ ∧ SameCore s.dev e
        else TurnedAway s.dev e pgMON ∧ e.mon = m)
    ∧ (Does .monCalSaveDone s fun e =>
        match m.save with
        | none => e = settle s.dev
        | some (ch, off, gain) =>
          e.mon.save = none ∧ e.rep = s.dev.rep ∧ SameCore s.dev e
            ∧ (ch < 2 → rd e pgMCOR (MCOR.CORR_OFFSET (12 + ch)) = off % 65536 ∧ rd e pgMCOR (MCOR.CORR_GAIN (12 + ch)) = gain % 65536
              ∧ OnlyRegs s.dev e [(pgMCOR, (MCOR.CORR_GAIN (12 + ch)).off)]))

/-- While the engine is powered: on a locked page DCF_RELEASE and a DCF_ENABLE_WRITE that would change ENABLE set
ERROR and change no register. Else DCF_ENABLE_WRITE of 1 within the 60 W bound sets ENABLE and ramps a feed that is
OFF and not held, beyond it sets ERROR and leaves ENABLE; of 0 it takes any feed but a LATCHED one to OFF, also in the
cycle of a fault event, which then counts without RETRY moving; a fault event in the cycle of a write of 1 has its
effect. DCF_OVERCURRENT_TRIP and DCF_ARC_DETECT in RAMP and ON count, record the cause with INT_RAW bit 0 and lead to
RETRY_WAIT, or with RETRY at 3 to LATCHED with bit 1. DCF_RETRY of a waiting feed that is not held ramps again and
counts RETRY; DCF_RETRY_RESET in ON and DCF_RELEASE in LATCHED set it to 0. DCF_RAMP_DONE in RAMP at 95 % leads to ON;
DCF_OPEN_DETECT below OPEN_TH in ON and DCF_OPEN_CLEAR at 10 mA above it set and clear OPEN with bit 2. In any other
case each changes nothing but the alarm outputs. Only the feed's page changes; the part, device time, mode, start-up,
trust and loop contexts stay. (Antenna Ports, Band Sets and DC Feed: Feed states; Antenna Ports, Band Sets and DC
Feed: Energy-limited DC feed; Antenna Ports, Band Sets and DC Feed: Port, filter-bank and DC-feed registers) -/
def Obligations.FeedsTripRetryAndLatch : Prop :=
  ∀ (s : State) (p : Fin 4), Powered s →
    let st := dcfState s.dev p
    let get (f : Fld) : Nat := rd s.dev (pgDCF p) f
    let keeps (e : Dev) : Prop := OnlyPages s.dev e [pgDCF p] ∧ SameCore s.dev e
    let held := dcfHeld s.dev
    let live := st = dcfRAMP ∨ st = dcfON
    (∀ (en : Bool) (cause : Fin 3), Does (.dcfEnableWrite p en cause) s fun e =>
      if (hdr s.dev (pgDCF p)).lock = true ∧ get DCF.DCF_CTRL_ENABLE ≠ b2n en then TurnedAway s.dev e (pgDCF p)
      else (if en = true ∧ dcfFits s.dev p 1 (get DCF.DCF_CTRL_VSEL) (get DCF.DCF_ILIM_ILIMIT) = false then
          (hdr e (pgDCF p)).error = true ∧ rd e (pgDCF p) DCF.DCF_CTRL_ENABLE = get DCF.DCF_CTRL_ENABLE
        else rd e (pgDCF p) DCF.DCF_CTRL_ENABLE = b2n en
          ∧ (en = false → dcfState e p = (if st = dcfLATCHED then dcfLATCHED else dcfOFF))
          ∧ (en = true → st = dcfOFF → dcfState e p = (if held = true then dcfOFF else dcfRAMP)))
        ∧ rd e (pgDCF p) DCF.DCF_STAT_RETRY = get DCF.DCF_STAT_RETRY
        ∧ (en = true → st ≠ dcfOFF → cause = 0 → dcfState e p = st)
        ∧ (if cause ≠ 0 ∧ live then rd e (pgDCF p) DCF.DCF_STAT_LAST_CAUSE = cause ∧ rawBit e (pgDCF p) 0 = true
            ∧ (en = true → dcfState e p = (if get DCF.DCF_STAT_RETRY < 3 then dcfRETRY else dcfLATCHED))
          else rd e (pgDCF p) DCF.DCF_STAT_LAST_CAUSE = get DCF.DCF_STAT_LAST_CAUSE) ∧ keeps e)
    ∧ (Does (.dcfOvercurrentTrip p) s fun e =>
        if live then rd e (pgDCF p) DCF.DCF_STAT_LAST_CAUSE = 1 ∧ rawBit e (pgDCF p) 0 = true
          ∧ rd e (pgDCF p) DCF.DCF_COUNT_TRIP_CNT = min 65535 (get DCF.DCF_COUNT_TRIP_CNT + 1)
          ∧ rd e (pgDCF p) DCF.DCF_STAT_RETRY = get DCF.DCF_STAT_RETRY
          ∧ (if get DCF.DCF_STAT_RETRY < 3 then dcfState e p = dcfRETRY else dcfState e p = dcfLATCHED ∧ rawBit e (pgDCF p) 1 = true)
          ∧ keeps e
        else e = settle s.dev)
    ∧ (Does (.dcfArcDetect p) s fun e =>
        if live then rd e (pgDCF p) DCF.DCF_STAT_LAST_CAUSE = 2 ∧ rawBit e (pgDCF p) 0 = true
          ∧ rd e (pgDCF p) DCF.DCF_COUNT_ARC_CNT = min 65535 (get DCF.DCF_COUNT_ARC_CNT + 1)
          ∧ rd e (pgDCF p) DCF.DCF_STAT_RETRY = get DCF.DCF_STAT_RETRY
          ∧ (if get DCF.DCF_STAT_RETRY < 3 then dcfState e p = dcfRETRY else dcfState e p = dcfLATCHED ∧ rawBit e (pgDCF p) 1 = true)
          ∧ keeps e
        else e = settle s.dev)
    ∧ (Does (.dcfRetry p) s fun e =>
        if st = dcfRETRY ∧ held = false then
          dcfState e p = dcfRAMP ∧ rd e (pgDCF p) DCF.DCF_STAT_RETRY = (get DCF.DCF_STAT_RETRY + 1) % 4 ∧ e.rep = s.dev.rep ∧ keeps e
        else e = settle s.dev)
    ∧ (Does (.dcfRetryReset p) s fun e =>
        if st = dcfON then rd e (pgDCF p) DCF.DCF_STAT_RETRY = 0 ∧ dcfState e p = dcfON ∧ e.rep = s.dev.rep ∧ keeps e
        else e = settle s.dev)
    ∧ (Does (.dcfRelease p) s fun e =>
        if (hdr s.dev (pgDCF p)).lock = true then TurnedAway s.dev e (pgDCF p)
        else if st = dcfLATCHED then rd e (pgDCF p) DCF.DCF_STAT_RETRY = 0
            ∧ dcfState e p = (if get DCF.DCF_CTRL_ENABLE = 1 ∧ held = false then dcfRAMP else dcfOFF) ∧ keeps e
        else e = settle s.dev)
    ∧ (∀ v a : BitVec 16, Does (.dcfRampDone p v a) s fun e =>
        if st = dcfRAMP ∧ 95 * dcfVolts (get DCF.DCF_CTRL_VSEL) ≤ v.toNat then
          dcfState e p = dcfON ∧ rd e (pgDCF p) DCF.DCF_MEAS_VOLTAGE = v.toNat ∧ rd e (pgDCF p) DCF.DCF_MEAS_CURRENT = a.toNat ∧ keeps e
        else e = settle s.dev)
    ∧ (∀ a : BitVec 16, Does (.dcfOpenDetect p a) s fun e =>
        if st = dcfON ∧ a.toNat < 10 * get DCF.DCF_OPEN_OPEN_TH ∧ get DCF.DCF_STAT_OPEN = 0 then
          rd e (pgDCF p) DCF.DCF_STAT_OPEN = 1 ∧ dcfState e p = dcfON ∧ rawBit e (pgDCF p) 2 = true ∧ keeps e
        else e = settle s.dev)
    ∧ (∀ a : BitVec 16, Does (.dcfOpenClear p a) s fun e =>
        if 10 * get DCF.DCF_OPEN_OPEN_TH + 10 ≤ a.toNat ∧ get DCF.DCF_STAT_OPEN = 1 then
          rd e (pgDCF p) DCF.DCF_STAT_OPEN = 0 ∧ dcfState e p = st ∧ rawBit e (pgDCF p) 2 = true ∧ keeps e
        else e = settle s.dev)

/-- While the engine is powered: PWR_CAP_COMPARE stores power and voltage; with CAP 0 it clears ACTIVE, OVER, STEPS
and the list of shed segments. Otherwise OVER says whether the power exceeds the cap; at least 5 s after the last
change an excess raises STEPS below 6 by one with INT_RAW bit 1, and at 6 sheds the segment of the lowest PRI, among
equals of the highest index, with bit 2; 10 s at 10 W or more under the cap with none shed lowers STEPS above 0 by
one, with bit 1, and else restores the segment shed last, with bit 2. Sooner than that STEPS and the shed segments
stay, and so where none is to be shed. HOLD_ENERGY_MEASURE stores the energy, WORN is 1 below 1.5 J, and a change sets
bit 3. The part, device time, mode, start-up, trust and loop contexts stay. (Power, Energy Limits and Thermal
Management: The power cap; Power, Energy Limits and Thermal Management: Hold-up store and power failure) -/
def Obligations.ThePowerCapStepsAndSheds : Prop :=
  ∀ s : State, Powered s →
    (∀ power volt : BitVec 16, Does (.pwrCapCompare power volt) s fun e =>
      let cap := rd s.dev pgPWR PWR.PWR_CAP_CAP
      let st := rd s.dev pgPWR PWR.PWR_STAT_STEPS
      let w := s.dev.pwr
      rd e pgPWR PWR.PWR_IN_POWER = power.toNat ∧ rd e pgPWR PWR.PWR_IN_VOLTAGE = volt.toNat
        ∧ rd e pgPWR PWR.PWR_STAT_ACTIVE = (if cap = 0 then 0 else 1)
        ∧ rd e pgPWR PWR.PWR_STAT_OVER = (if cap ≠ 0 ∧ 10 * cap < power.toNat then 1 else 0)
        ∧ (if cap = 0 then rd e pgPWR PWR.PWR_STAT_STEPS = 0 ∧ e.pwr.shedCap = []
          else if w.sinceChange < 4 then rd e pgPWR PWR.PWR_STAT_STEPS = st ∧ e.pwr.shedCap = w.shedCap
          else if 10 * cap < power.toNat then
            (if st < 6 then rd e pgPWR PWR.PWR_STAT_STEPS = st + 1 ∧ e.pwr.shedCap = w.shedCap ∧ rawBit e pgPWR 1 = true
            else rd e pgPWR PWR.PWR_STAT_STEPS = st
              ∧ (match shedPick s.dev (fun _ => true) with
                | some n => e.pwr.shedCap = w.shedCap ++ [n] ∧ isShed e n = true ∧ rawBit e pgPWR 2 = true
                | none => e.pwr.shedCap = w.shedCap))
          else if power.toNat + 100 ≤ 10 * cap ∧ 9 ≤ w.underRun then
            (match w.shedCap.getLast? with
              | some n => rd e pgPWR PWR.PWR_STAT_STEPS = st ∧ e.pwr.shedCap = w.shedCap.filter (· ≠ n) ∧ isShed e n = false
                  ∧ rawBit e pgPWR 2 = true
              | none => rd e pgPWR PWR.PWR_STAT_STEPS = st - 1 ∧ e.pwr.shedCap = [] ∧ (st ≠ 0 → rawBit e pgPWR 1 = true))
          else rd e pgPWR PWR.PWR_STAT_STEPS = st ∧ e.pwr.shedCap = w.shedCap)
        ∧ SameCore s.dev e)
    ∧ (∀ mj : BitVec 16, Does (.holdEnergyMeasure mj) s fun e =>
        rd e pgPWR PWR.HOLD_STAT_ENERGY = mj.toNat ∧ rd e pgPWR PWR.HOLD_STAT_WORN = (if mj.toNat < 1500 then 1 else 0)
          ∧ (rd s.dev pgPWR PWR.HOLD_STAT_WORN ≠ (if mj.toNat < 1500 then 1 else 0) → rawBit e pgPWR 3 = true)
          ∧ OnlyRegs s.dev e [(pgPWR, 0x4C)] ∧ SameCore s.dev e)

/-- While the engine is powered: SENSOR_READ marks an unreadable sensor FAILED and, where it is not mapped out, shows
+150.0 degrees, and shows a sound one's mean over its last 10 readings. THERMAL_SHED_STEP of a counting sensor at six
steps and more than 18.0 degrees over THR sheds the segment picked, with INT_RAW bit 3, and at 14.0 degrees over THR
or below restores the one it shed last; else it changes nothing but the alarm outputs. ZONE_SHUTDOWN above SHUT shuts
an open zone with COOL_LEFT 60 and bit 1, and leaves no biased chain of its ports at work; zone 6 switches off every
feed that is not LATCHED. ZONE_RESTART after 60 s cool reopens it. Otherwise both change nothing but the alarm
outputs. SENSOR_MAP_OUT with the accepted token and a sound substitute maps the sensor out with bit 4, using the token
up, and otherwise sets bit 5; SENSOR_RESTORE maps it back; on a locked page both set ERROR and change no register. The
supply, device time, mode and start-up stay. (Power, Energy Limits and Thermal Management: Sensors; Power, Energy
Limits and Thermal Management: Hardware shutdown; Power, Energy Limits and Thermal Management: Throttling; Power,
Energy Limits and Thermal Management: Map-out) -/
def Obligations.SensorsThrottleAndShutZones : Prop :=
  ∀ s : State, Powered s →
    let keeps (e : Dev) : Prop := e.supply = s.dev.supply ∧ e.devLoop = s.dev.devLoop ∧ e.mode = s.dev.mode ∧ e.boot = s.dev.boot
    (∀ (raw : List (Option Int)) (i : Fin 10), Does (.sensorRead raw) s fun e =>
      (match raw.getD i none with
        | none => rd e pgTHM (THM.SNS_FAILED i) = 1 ∧ (snsMapped s.dev i = false → rdS e pgTHM (THM.SNS_TEMP i) = 1500)
        | some t => snsFailed s.dev i = false →
            let l := (t :: (sensorOf s.dev i).raw).take 10
            rd e pgTHM (THM.SNS_FAILED i) = 0
              ∧ (snsMapped s.dev i = false → rdS e pgTHM (THM.SNS_TEMP i) = clamp16 (quot (l.foldl (· + ·) 0) l.length)))
        ∧ keeps e)
    ∧ (∀ i : Fin 14, Does (.thermalShedStep i) s fun e =>
        if snsClass s.dev i = 0 ∨ snsBad s.dev i = true then e = settle s.dev
        else if snsSteps s.dev i = 6 ∧ snsThrOf s.dev i + 180 < snsReading s.dev i then
          (match shedPick s.dev (fun n => decide (4 ≤ i.val) || hasOut s.dev n i) with
            | some n => isShed e n = true ∧ (sensorOf e i).shed = (sensorOf s.dev i).shed ++ [n] ∧ rawBit e pgTHM 3 = true ∧ keeps e
            | none => e = settle s.dev)
        else if snsReading s.dev i ≤ snsThrOf s.dev i + 140 then
          (match (sensorOf s.dev i).shed.getLast? with
            | some n => isShed e n = false ∧ (sensorOf e i).shed = (sensorOf s.dev i).shed.filter (· ≠ n) ∧ rawBit e pgTHM 3 = true ∧ keeps e
            | none => e = settle s.dev)
        else e = settle s.dev)
    ∧ (∀ (i : Fin 10) (t : Int), Does (.zoneShutdown i t) s fun e =>
        if snsShutOf s.dev i < t ∧ zoneShut s.dev (zoneOf i) = false then
          zoneShut e (zoneOf i) = true ∧ rd e pgTHM (THM.ZONE_COOL_LEFT (zoneOf i)) = 60 ∧ rawBit e pgTHM 1 = true
            ∧ (∀ p : Fin 4, (zoneOf i = p ∨ 4 ≤ zoneOf i) → (chainRt e p).gate = false ∧ (chainRt e p).rf = false
                ∧ ((chainRt s.dev p).drain = true → txState e p ≠ txON ∧ txState e p ≠ txREADY ∧ txState e p ≠ txBIASING))
            ∧ (zoneOf i = 6 → ∀ p : Fin 4, dcfState s.dev p ≠ dcfLATCHED → dcfState e p = dcfOFF) ∧ keeps e
        else e = settle s.dev)
    ∧ (∀ z : Fin 8, Does (.zoneRestart z) s fun e =>
        if zoneShut s.dev z = true ∧ 600 ≤ tget (fun _ => 0) s.dev.pwr.cool z then
          zoneShut e z = false ∧ rd e pgTHM (THM.ZONE_COOL_LEFT z) = 0 ∧ rawBit e pgTHM 1 = true ∧ keeps e
        else e = settle s.dev)
    ∧ (∀ i : Fin 16, Does (.sensorMapOut i) s (fun e =>
        if (hdr s.dev pgTHM).lock = true then TurnedAway s.dev e pgTHM
        else (if i.val ≤ 9 ∧ (match s.dev.trust.held with | some (2, a, _) => decide (a = i.val) | _ => false) = true
            ∧ snsFailed s.dev (substOf i) = false ∧ snsMapped s.dev (substOf i) = false then
          snsMapped e i = true ∧ e.trust.held = none ∧ rd e pgTRUST TRUST.TOK_STAT_STATE = 10 ∧ rawBit e pgTHM 4 = true
        else rawBit e pgTHM 5 = true ∧ e.trust = s.dev.trust ∧ OnlyRegs s.dev e []) ∧ keeps e)
      ∧ Does (.sensorRestore i) s (fun e =>
        if (hdr s.dev pgTHM).lock = true then TurnedAway s.dev e pgTHM
        else (if i.val ≤ 9 then snsMapped e i = false ∧ rawBit e pgTHM 4 = true else rawBit e pgTHM 5 = true ∧ OnlyRegs s.dev e [])
          ∧ e.trust = s.dev.trust ∧ keeps e))

/-- While the engine is powered: CONV_CAL_START and CONV_CAL_ALL start idle converters in TEST; elsewhere, and with
CONV_CAL_SAVE on a locked page, they set ERROR and change no register. CONV_CAL_DONE of a running converter ends DONE
within the limits on spur, gain and offset, with the corrections found in force, else FAILED with those before it,
with INT_RAW bit 0 or 1, its CAL_FAIL bit and the measured figures; once none runs and one has passed, outside START,
a save is in progress. CONV_CAL_SAVE begins a save, or asks for it while a calibration runs. CONV_SAVE_DONE of a save
in progress ends it: a good one makes the older copy the newer. CONV_AUTO_SAVE saves only where every converter has
converged. CONV_BG_UPDATE with BG_EN holds on over-range or a weak signal, and else moves each correction within its
bound and counts. CONV_SPUR_FAULT above -65 dBFS records a converter not yet recorded, and its active segments read
DEGRADED. ADC_OVERRANGE and DAC_CLIP count events with bit 2. In any other case each changes nothing but the alarm
outputs. The part, device time, mode, start-up, trust and loop contexts stay. (Direct-RF Converters and the Sample
Word: Foreground calibration; Direct-RF Converters and the Sample Word: Background calibration; Direct-RF Converters
and the Sample Word: When calibrations meet; Direct-RF Converters and the Sample Word: Over-range and recovery) -/
def Obligations.ConvertersCalibrateAndSave : Prop :=
  ∀ s : State, Powered s →
    let k := s.dev.conv
    let runs (i : Nat) : Bool := k.running.any fun e => decide (e.1 = i)
    (∀ i : Fin 12, Does (.convCalStart i) s fun e =>
      if (hdr s.dev (pgCONV i)).lock = true ∨ s.dev.mode ≠ .test then TurnedAway s.dev e (pgCONV i) ∧ e.conv = k
      else calState e i = (if runs i then calState s.dev i else calRUNNING)
        ∧ e.conv.running = (if runs i then k.running else k.running ++ [(i.val, calState s.dev i)]) ∧ SameCore s.dev e)
    ∧ (Does .convCalAll s fun e =>
      if (hdr s.dev pgCGLB).lock = true ∨ s.dev.mode ≠ .test then TurnedAway s.dev e pgCGLB ∧ e.conv = k
      else (∀ i : Fin 12, calState e i = (if runs i then calState s.dev i else calRUNNING))
        ∧ rd e pgCGLB CGLB.GLB_STAT_CAL_FAIL = 0 ∧ e.conv.all = true ∧ SameCore s.dev e)
    ∧ (∀ (i : Fin 12) (spur gain offs temp : Int) (corr : List SubCorr), Does (.convCalDone i spur gain offs (temp, corr)) s fun e =>
        if runs i = true then
          let ok : Bool := decide (spur ≤ -1400 ∧ -10 ≤ gain ∧ gain ≤ 10 ∧ -64 ≤ offs ∧ offs ≤ 64)
          calState e i = (if ok then calDONE else calFAILED) ∧ corrOf e i = (if ok then corr else corrOf s.dev i)
            ∧ rdS e (pgCONV i) CONV.CAL_QUAL_WORST_SPUR = clamp16 spur ∧ rdS e (pgCONV i) CONV.CAL_QUAL_CAL_TEMP = clamp16 temp
            ∧ rawBit e (pgCONV i) (if ok then 0 else 1) = true
            ∧ nbit (rd e pgCGLB CGLB.GLB_STAT_CAL_FAIL) i = ! ok
            ∧ e.conv.running = (k.running.filter fun x => decide (x.1 ≠ i.val))
            ∧ (e.conv.running = [] → s.dev.mode ≠ .start → ok = true ∨ k.passed = true →
                rd e pgCGLB CGLB.GLB_STAT_SAVE_BUSY = 1 ∧ e.conv.saveWait = false)
            ∧ SameCore s.dev e
        else e = settle s.dev)
    ∧ (Does .convCalSave s fun e =>
        if (hdr s.dev pgCGLB).lock = true then TurnedAway s.dev e pgCGLB ∧ e.conv = k
        else (if k.running = [] then rd e pgCGLB CGLB.GLB_STAT_SAVE_BUSY = 1 ∧ e.conv.saveWait = false
          else e.conv = { k with saveWait := true } ∧ OnlyRegs s.dev e []) ∧ OnlyPages s.dev e [pgCGLB] ∧ SameCore s.dev e)
    ∧ (∀ ok : Bool, Does (.convSaveDone ok) s fun e =>
        if rd s.dev pgCGLB CGLB.GLB_STAT_SAVE_BUSY = 1 then
          rd e pgCGLB CGLB.GLB_STAT_SAVE_BUSY = 0 ∧ rd e pgCGLB CGLB.GLB_STAT_SAVE_OK = b2n ok
            ∧ (if ok then rd e pgCGLB CGLB.SAVE_AGE_SECONDS = 0 ∧ rawBit e pgCGLB 0 = true ∧ e.conv.newer = ! k.newer
                else rawBit e pgCGLB 1 = true ∧ e.conv.newer = k.newer)
            ∧ (if k.newer then e.conv.validA = ok ∧ e.conv.setsA = k.saving ∧ e.conv.validB = k.validB ∧ e.conv.setsB = k.setsB
                else e.conv.validB = ok ∧ e.conv.setsB = k.saving ∧ e.conv.validA = k.validA ∧ e.conv.setsA = k.setsA)
            ∧ OnlyPages s.dev e [pgCGLB] ∧ SameCore s.dev e
        else e = settle s.dev)
    ∧ (Does .convAutoSave s fun e =>
        if (convs12.all fun i => rdB s.dev (pgCONV i) CONV.CAL_STAT_BG_CONV) = true then
          (if k.running = [] then rd e pgCGLB CGLB.GLB_STAT_SAVE_BUSY = 1 else e.conv = { k with saveWait := true })
            ∧ OnlyPages s.dev e [pgCGLB] ∧ SameCore s.dev e
        else e = settle s.dev)
    ∧ (∀ (i : Fin 12) (ovr : Bool) (rms : Int) (est : List SubCorr), Does (.convBgUpdate i ovr rms est) s fun e =>
        if rd s.dev (pgCONV i) CONV.CONV_CTRL_BG_EN = 1 ∧ calState s.dev i ≠ calRUNNING then
          (if ovr = true ∨ rms < -900 then
            rd e (pgCONV i) CONV.CAL_STAT_BG_HELD = 1 ∧ corrOf e i = corrOf s.dev i
              ∧ rd e (pgCONV i) CONV.CAL_STAT_UPDATES = rd s.dev (pgCONV i) CONV.CAL_STAT_UPDATES
          else rd e (pgCONV i) CONV.CAL_STAT_BG_HELD = 0
              ∧ rd e (pgCONV i) CONV.CAL_STAT_UPDATES = (rd s.dev (pgCONV i) CONV.CAL_STAT_UPDATES + 1) % 65536
              ∧ (((corrOf s.dev i).zip (corrOf e i)).all fun x => decide ((x.2.gain - x.1.gain).natAbs ≤ 5
                  ∧ (x.2.skew - x.1.skew).natAbs ≤ 20 ∧ (x.2.offs - x.1.offs).natAbs ≤ 1)) = true
              ∧ (gainMoved (corrOf s.dev i) (corrOf e i) = true → rd e (pgCONV i) CONV.CAL_STAT_BG_CONV = 0))
            ∧ calState e i = calState s.dev i ∧ OnlyRegs s.dev e [(pgCONV i, 0x48)] ∧ SameCore s.dev e
        else e = settle s.dev)
    ∧ (∀ (i : Fin 12) (spur : Int), Does (.convSpurFault i spur) s fun e =>
        if -1300 < spur ∧ k.spur.contains i.val = false then
          e.conv.spur = k.spur ++ [i.val] ∧ rawBit e (pgCONV i) 4 = true
            ∧ (∀ n : Fin 1024, n.val ∈ s.dev.act → inBranch s.dev n = i → i.val < 4 → rd e (pgSEG n) SEG.SEG_STAT_DEGRADED = 1)
            ∧ SameCore s.dev e
        else e = settle s.dev)
    ∧ (∀ i : Fin 12, Does (.adcOverrange i) s fun e =>
        rd e (pgCONV i) CONV.OVR_CNT_EVENTS = min 4294967295 (rd s.dev (pgCONV i) CONV.OVR_CNT_EVENTS + 1)
          ∧ rawBit e (pgCONV i) 2 = true ∧ (2 ≤ i.val → OnlyRegs s.dev e [(pgCONV i, 0x54)]) ∧ SameCore s.dev e)
    ∧ (∀ p : Fin 4, Does (.dacClip p) s fun e =>
        rd e (pgCONV (4 + p)) CONV.OVR_CNT_EVENTS = min 4294967295 (rd s.dev (pgCONV (4 + p)) CONV.OVR_CNT_EVENTS + 1)
          ∧ rawBit e (pgCONV (4 + p)) 2 = true ∧ OnlyRegs s.dev e [(pgCONV (4 + p), 0x54)] ∧ SameCore s.dev e)

/-- While the engine is powered: PCIE_LINK_UP sets UP, WIDTH, SPEED, EXT_TAG and the payload size, with INT_RAW bit 0
where UP changes; PCIE_LINK_SPEED_DROP retrains a link that is up. PCIE_LINK_DOWN and PERST_ASSERT clear UP, PCIE_FLR
and PCIE_HOT_RESET keep it; all four empty and disable the MSI-X structures, and where the host is the master clear
MASTER.READY and disable every ring and DMA channel, which abandon their descriptors. AGENT_RESET does that for the
agent's master. MSIX_UNMASK writes an entry or MSI-X control, and an unmasked pending vector of an enabled structure
is sent. MASTER_READY sets READY with bit 2, and a start that waits goes on at AIR_ACQ unless that step's alternative
is set. In every other case the supply, device time, mode, trust and active segments stay. (Host Interface, Master
Selection and Queues: PCI Express endpoint; Host Interface, Master Selection and Queues: Master selection; Host
Interface, Master Selection and Queues: Streaming; Connectors, Pins and Electrical Ratings) -/
def Obligations.EndpointResetsReachTheMaster : Prop :=
  ∀ s : State, Powered s →
    let host : Bool := ! agentMaster s.dev
    let keeps (e : Dev) : Prop := e.supply = s.dev.supply ∧ e.devLoop = s.dev.devLoop ∧ e.mode = s.dev.mode
      ∧ e.trust = s.dev.trust ∧ e.act = s.dev.act ∧ e.ctxs = s.dev.ctxs
    let lost (e : Dev) : Prop := rd e pgHOST HOST.MASTER_READY = 0 ∧ (∀ r : Fin 64, rd e pgRING (RING.RING_CFG_EN r) = 0)
      ∧ (∀ c : Fin 16, rd e pgDMA (DMA.DMA_CFG_EN c) = 0 ∧ rd e pgDMA (DMA.DMA_STAT_STATE c) = dmaIDLE
          ∧ rd e pgDMA (DMA.DMA_STAT_INFLIGHT c) = 0
          ∧ rd e pgDMA (DMA.DMA_CONS_CONS c) = rd s.dev pgDMA (DMA.DMA_CONS_CONS c))
    let ends (e : Dev) : Prop := e.rep.msix = [] ∧ e.rep.msixEn = false ∧ e.rep.msixMask = false
      ∧ (if host then lost e else OnlyPages s.dev e [pgHOST] ∧ rd e pgHOST HOST.MASTER_READY = rd s.dev pgHOST HOST.MASTER_READY)
      ∧ e.boot = s.dev.boot ∧ OnlyPages s.dev e [pgHOST, pgRING, pgDMA] ∧ keeps e
    (∀ (w : Fin 17) (sp : Fin 5) (tag mps : Bool), Does (.pcieLinkUp w sp tag mps) s fun e =>
      rd e pgHOST HOST.LINK_STAT_UP = 1 ∧ rd e pgHOST HOST.LINK_STAT_WIDTH = w.val % 16 ∧ rd e pgHOST HOST.LINK_STAT_SPEED = sp.val % 4
        ∧ rd e pgHOST HOST.LINK_STAT_EXT_TAG = b2n tag ∧ e.mps128 = mps
        ∧ (rd s.dev pgHOST HOST.LINK_STAT_UP = 0 → rawBit e pgHOST 0 = true)
        ∧ OnlyRegs s.dev e [(pgHOST, 0x40), (pgHOST, 0x5C)] ∧ e.boot = s.dev.boot ∧ keeps e)
    ∧ (∀ (w : Fin 17) (sp : Fin 5), Does (.pcieLinkSpeedDrop w sp) s fun e =>
        (if rd s.dev pgHOST HOST.LINK_STAT_UP = 1 then rd e pgHOST HOST.LINK_STAT_UP = 1
            ∧ rd e pgHOST HOST.LINK_STAT_WIDTH = w.val % 16 ∧ rd e pgHOST HOST.LINK_STAT_SPEED = sp.val % 4
            ∧ OnlyRegs s.dev e [(pgHOST, 0x40), (pgHOST, 0x5C)]
          else OnlyRegs s.dev e []) ∧ e.boot = s.dev.boot ∧ keeps e)
    ∧ (Does .pcieLinkDown s fun e => rd e pgHOST HOST.LINK_STAT_UP = 0
        ∧ (rd s.dev pgHOST HOST.LINK_STAT_UP = 1 → rawBit e pgHOST 0 = true) ∧ ends e)
    ∧ (Does .perstAssert s fun e => rd e pgHOST HOST.LINK_STAT_UP = 0
        ∧ (rd s.dev pgHOST HOST.LINK_STAT_UP = 1 → rawBit e pgHOST 0 = true) ∧ ends e)
    ∧ (Does .pcieFlr s fun e => rd e pgHOST HOST.LINK_STAT_UP = rd s.dev pgHOST HOST.LINK_STAT_UP ∧ ends e)
    ∧ (Does .pcieHotReset s fun e => rd e pgHOST HOST.LINK_STAT_UP = rd s.dev pgHOST HOST.LINK_STAT_UP ∧ ends e)
    ∧ (Does .agentReset s fun e => (if host then OnlyRegs s.dev e [] ∧ e.rep = s.dev.rep else lost e)
        ∧ e.rep.msix = s.dev.rep.msix ∧ e.boot = s.dev.boot ∧ keeps e)
    ∧ (∀ en mask : Bool, Does (.msixUnmask (.control en mask)) s fun e =>
        e.rep.msixEn = en ∧ e.rep.msixMask = mask
          ∧ ((en = false ∨ mask = true) → e.rep.msix = s.dev.rep.msix ∧ e.rep.out = s.dev.rep.out)
          ∧ OnlyRegs s.dev e [] ∧ e.boot = s.dev.boot ∧ keeps e)
    ∧ (∀ (v : Fin 2048) (addr : BitVec 64) (data : BitVec 32) (masked : Bool),
        Does (.msixUnmask (.entry v addr data masked)) s fun e =>
          let was := (tget (fun _ => msix0) s.dev.rep.msix v).pend
          let sent := was && ! masked && s.dev.rep.msixEn && ! s.dev.rep.msixMask
          (twf (fun _ => msix0) s.dev.rep.msix = true →
            tget (fun _ => msix0) e.rep.msix v = ⟨addr.toNat, data.toNat, masked, was && ! sent⟩ ∧ (sent = true → Out.msix v ∈ e.rep.out))
            ∧ OnlyRegs s.dev e [] ∧ e.boot = s.dev.boot ∧ keeps e)
    ∧ (Does .masterReady s fun e =>
        rd e pgHOST HOST.MASTER_READY = 1 ∧ rawBit e pgHOST 2 = true
          ∧ (s.dev.boot.phase ≠ .waitMaster → e.boot = s.dev.boot ∧ OnlyRegs s.dev e [(pgHOST, 0x44)] ∧ keeps e)
          ∧ (s.dev.boot.phase = .waitMaster → hasAlt s.dev 4 = false →
              e.boot.phase = .step ∧ rd e pgBOOT BOOT.BOOT_STAT_STEP = 9 ∧ rd e pgBOOT BOOT.BOOT_STAT_WAIT_MASTER = 0 ∧ keeps e))

/-- While the engine is powered: RING_DOORBELL takes a TAIL within the ring, and refuses one beyond it with INT_RAW
bit 0, keeping TAIL. RING_ENABLE sets EN, from 0 to 1 with TAIL 0. RING_MOD_TIMER ends the moderation interval or
begins the next where a delivery waits for its message, which the agent's master is then sent. QUEUE_FLUSH counts an
item cut short in PARTIAL; with none, or with the interrupt of STRAY masked, it empties the queue, counts what it held
in FLUSHED and frees its words of the store, keeps the sequence, one further for an item cut short, whose words to
come count in STRAY, and leaves every other queue and the outputs. On a locked page QUEUE_FLUSH, and a RING_ENABLE
that would change EN, set ERROR and change no register. LEVEL_REPORT_TIMER with no active segment reports nothing, and
with one whose q8 has room, no watermark and an idle ring, puts one item of type 0x40 and two words there, with the
levels, the gain and the cap. No other register changes; the part, device time, mode, start-up, trust and loop
contexts stay. (Host Interface, Master Selection and Queues: Delivery to rings; Host Interface, Master Selection and
Queues: Flush; Host Interface, Master Selection and Queues: Items; Host Interface, Master Selection and Queues: Queues
and their roles) -/
def Obligations.RingsAndQueuesServeTheMaster : Prop :=
  ∀ s : State, Powered s →
    (∀ (r : Fin 64) (tail : Word), Does (.ringDoorbell r tail) s fun e =>
      (if 2 ^ rd s.dev pgRING (RING.RING_CFG_LOG2 r) < ((ringOf s.dev.rep r).head + 4294967296 - tail.toNat) % 4294967296 then
        rawBit e pgRING 0 = true ∧ (ringOf e.rep r).tail = (ringOf s.dev.rep r).tail
      else (ringOf e.rep r).tail = tail.toNat) ∧ OnlyRegs s.dev e [] ∧ SameCore s.dev e)
    ∧ (∀ (r : Fin 64) (en : Bool), Does (.ringEnable r en) s fun e =>
        if (hdr s.dev pgRING).lock = true ∧ rd s.dev pgRING (RING.RING_CFG_EN r) ≠ b2n en then TurnedAway s.dev e pgRING
        else rd e pgRING (RING.RING_CFG_EN r) = b2n en
          ∧ (if en = true ∧ rd s.dev pgRING (RING.RING_CFG_EN r) = 0 then (ringOf e.rep r).tail = 0 else e.rep = s.dev.rep)
          ∧ OnlyRegs s.dev e [(pgRING, (RING.RING_CFG_EN r).off)] ∧ SameCore s.dev e)
    ∧ (∀ r : Fin 64, Does (.ringModTimer r) s fun e =>
        let x := ringOf s.dev.rep r
        ringOf e.rep r = { x with modRun := x.modPend, modPend := false }
          ∧ (x.modPend = true → rd s.dev pgRING (RING.RING_CFG_IE r) = 1 → agentMaster s.dev = true →
              e.rep.out = .agentIrq (rd s.dev pgRING (RING.RING_CFG_VEC r)) :: s.dev.rep.out)
          ∧ (x.modPend = false → e.rep.out = s.dev.rep.out)
          ∧ OnlyRegs s.dev e [] ∧ SameCore s.dev e)
    ∧ (∀ (q : QueueId) (cut : Fin 4), Does (.queueFlush (q, cut)) s fun e =>
        let was := queueOf s.dev.rep (queueKey q)
        let now := queueOf e.rep (queueKey q)
        if (hdr s.dev (qPage (queueKey q))).lock = true then TurnedAway s.dev e (qPage (queueKey q))
        else now.partials = (if cut = 0 then was.partials else min 65535 (was.partials + 1))
          ∧ (cut = 0 ∨ (hdr s.dev (qPage (queueKey q))).mask.getLsbD (4 * qBlk (queueKey q) + 2) = true →
              now.items = [] ∧ now.kept = none ∧ now.dropped = was.dropped ∧ now.overflow = was.overflow
                ∧ now.next = (if cut = 0 then was.next else (was.next + 1) % 65536)
                ∧ now.stray = (if cut = 0 then was.stray else min 65535 (was.stray + cut))
                ∧ now.flushed = min 65535 (was.flushed + was.items.length + (if was.kept.isSome then 1 else 0))
                ∧ e.rep.storeUsed = s.dev.rep.storeUsed - qFill was
                ∧ (∀ j : Nat, j ≠ queueKey q → queueOf e.rep j = queueOf s.dev.rep j) ∧ e.rep.out = s.dev.rep.out)
          ∧ OnlyRegs s.dev e [] ∧ SameCore s.dev e)
    ∧ (Does .levelReportTimer s fun e =>
        (s.dev.act = [] → e.rep = s.dev.rep)
          ∧ (∀ n : Fin 1024, s.dev.act = [n.val] → rd s.dev (pgQ (qSeg n 8)) (QB.Q_CFG_EN 0) = 1 →
              rd s.dev (pgQ (qSeg n 8)) (QB.Q_WM_LEVEL 0) = 0 →
              rd s.dev pgRING (RING.RING_CFG_EN (rd s.dev (pgQ (qSeg n 8)) (QB.Q_CFG_RING 0))) = 0 →
              s.dev.rep.flt.away.contains 132 = false → s.dev.rep.storeUsed + 2 ≤ storeWords →
              qFill (queueOf s.dev.rep (qSeg n 8)) + 2 ≤ rd s.dev (pgQ (qSeg n 8)) (QB.Q_LIMIT_LIMIT 0) →
              ∃ h, (queueOf e.rep (qSeg n 8)).items = (queueOf s.dev.rep (qSeg n 8)).items ++ [h]
                ∧ h.item.typ = 0x40 ∧ h.item.words = 2 ∧ h.item.seq = (queueOf s.dev.rep (qSeg n 8)).next
                ∧ h.item.payload.headD 0 = rd s.dev (pgSEG n) SEG.LEVEL_IN_IN + 65536 * rd s.dev (pgSEG n) SEG.LEVEL_OUT_OUT
                ∧ h.item.payload.getD 1 0 = rd s.dev (pgLOOP n) LOOP.GAIN_NOW_GAIN + 65536 * rd s.dev (pgLOOP n) LOOP.GAIN_NOW_CAP)
          ∧ OnlyRegs s.dev e [] ∧ SameCore s.dev e)

/-- While the engine is powered: DMA_DOORBELL stores PROD; an enabled channel not HALTED takes up to 2,048 descriptors
in flight over all channels and is RUNNING, or IDLE with none posted. DMA_DESC_DONE of a running channel that streams
nothing stores the given bytes at the device address, or writes those there to the host address, and advances CONS;
where capture memory is out of use it stores nothing and writes zeros. Of one that streams it writes the oldest full
block to the host address, or waits for one. A bad descriptor halts with ERR 1. DMA_COMPLETION_TIMEOUT halts a channel
with a descriptor in flight with ERR 2 to 4. A halt ends with nothing in flight and INT_RAW bit c. Of a HALTED
channel, DMA_RETRY clears ERR and keeps CONS, DMA_SKIP clears ERR and advances CONS. DMA_ABORT disables the channel,
abandons its descriptors and keeps CONS. On a locked page the last three set ERROR and change no register. In any
other case each changes nothing but the alarm outputs. The part, device time, mode, start-up, trust and loop contexts
stay. (Host Interface, Master Selection and Queues: DMA channels) -/
def Obligations.DmaChannelsMoveDataAndHalt : Prop :=
  ∀ (s : State) (c : Fin 16), Powered s →
    let get (d : Dev) (f : Nat → Fld) : Nat := rd d pgDMA (f c)
    let posted (prod : Nat) : Nat := (prod + 4294967296 - get s.dev DMA.DMA_CONS_CONS) % 4294967296
    let others : Nat := rd s.dev pgHOST HOST.INFLIGHT_DESC - get s.dev DMA.DMA_STAT_INFLIGHT
    let st := get s.dev DMA.DMA_STAT_STATE
    let en := get s.dev DMA.DMA_CFG_EN
    let ready := en = 1 ∧ st = dmaRUNNING ∧ 0 < get s.dev DMA.DMA_STAT_INFLIGHT
    let halted (e : Dev) (err : Nat) : Prop := get e DMA.DMA_STAT_STATE = dmaHALTED ∧ get e DMA.DMA_STAT_ERR = err
      ∧ get e DMA.DMA_STAT_INFLIGHT = 0 ∧ get e DMA.DMA_CONS_CONS = get s.dev DMA.DMA_CONS_CONS ∧ rawBit e pgDMA c = true
    let next := (get s.dev DMA.DMA_CONS_CONS + 1) % 4294967296
    let keeps (e : Dev) : Prop := OnlyPages s.dev e [pgDMA, pgHOST] ∧ SameCore s.dev e
    let away (e : Dev) : Prop := (hdr e pgDMA).error = true ∧ OnlyRegs s.dev e [] ∧ SameCore s.dev e
    (∀ prod : Word, Does (.dmaDoorbell c prod) s fun e =>
      get e DMA.DMA_PROD_PROD = prod.toNat ∧ get e DMA.DMA_CONS_CONS = get s.dev DMA.DMA_CONS_CONS
        ∧ (if en = 1 ∧ st ≠ dmaHALTED then
            get e DMA.DMA_STAT_INFLIGHT = min (posted prod.toNat) (2048 - others)
              ∧ get e DMA.DMA_STAT_STATE = (if posted prod.toNat = 0 then dmaIDLE else dmaRUNNING)
          else OnlyRegs s.dev e [(pgDMA, (DMA.DMA_PROD_PROD c).off)])
        ∧ keeps e)
    ∧ (∀ (x : Desc) (data : List Byte), DoesMem (.dmaDescDone c x data) s fun e m =>
        if ready then
          (match streamOf s.dev c with
            | some ch =>
              if x.len = 65536 ∧ x.flags % 2 = 1 ∧ x.flags < 4 then
                (match (capRt s.dev ch).filled with
                  | [] => e = settle s.dev
                  | b :: t => get e DMA.DMA_CONS_CONS = next ∧ (capRt e ch).filled = t
                      ∧ e.rep.out.contains (.memWrite x.hostAddr
                          (byteDwords (memLoad s.cap (4096 * rd s.dev pgCAP (CAP.CAP_BUF_BASE ch) + 65536 * b) 65536))) = true)
              else halted e 1
            | none =>
              if x.len % 4 = 0 ∧ 4 ≤ x.len ∧ x.len ≤ 67108864 ∧ x.flags < 4 ∧ x.devAddr + x.len ≤ 25769803776 then
                get e DMA.DMA_CONS_CONS = next
                  ∧ (x.flags % 2 = 0 → ∀ a, memRead m a =
                      if capUsable s.dev = true ∧ x.devAddr ≤ a ∧ a < x.devAddr + min x.len data.length then data.getD (a - x.devAddr) 0
                      else memRead s.cap a)
                  ∧ (x.flags % 2 = 1 → e.rep.out.contains (.memWrite x.hostAddr (byteDwords
                      (if capUsable s.dev then memLoad s.cap x.devAddr x.len else List.replicate x.len 0))) = true)
              else halted e 1)
          ∧ (x.flags % 2 = 1 ∨ streamOf s.dev c ≠ none → m = s.cap) ∧ keeps e
        else e = settle s.dev ∧ m = s.cap)
    ∧ (∀ err : Fin 3, Does (.dmaCompletionTimeout c err) s fun e =>
        if ready then halted e (2 + err) ∧ keeps e else e = settle s.dev)
    ∧ (Does (.dmaRetry c) s fun e =>
        if (hdr s.dev pgDMA).lock = true then away e
        else if st = dmaHALTED then get e DMA.DMA_STAT_ERR = 0 ∧ get e DMA.DMA_CONS_CONS = get s.dev DMA.DMA_CONS_CONS
          ∧ (en = 1 → get e DMA.DMA_STAT_STATE = (if posted (get s.dev DMA.DMA_PROD_PROD) = 0 then dmaIDLE else dmaRUNNING)) ∧ keeps e
        else e = settle s.dev)
    ∧ (Does (.dmaSkip c) s fun e =>
        if (hdr s.dev pgDMA).lock = true then away e
        else if st = dmaHALTED then get e DMA.DMA_STAT_ERR = 0 ∧ get e DMA.DMA_CONS_CONS = next ∧ keeps e
        else e = settle s.dev)
    ∧ (Does (.dmaAbort c) s fun e =>
        if (hdr s.dev pgDMA).lock = true then away e
        else get e DMA.DMA_CFG_EN = 0 ∧ get e DMA.DMA_STAT_INFLIGHT = 0 ∧ get e DMA.DMA_STAT_STATE = dmaIDLE
          ∧ get e DMA.DMA_CONS_CONS = get s.dev DMA.DMA_CONS_CONS ∧ keeps e)

/-- While the engine is powered: CAPTURE_START_CMD of a channel not running starts it at position 0 with its time
where the start is allowed, else sets ERROR and changes no register. CAPTURE_STOP_CMD ends a RING or STREAM channel
STOPPED with INT_RAW bit ch; on a locked page both set ERROR and change no register. CAPTURE_BUFFER_FULL ends a
ONESHOT FULL with its bytes in the buffer; no byte outside the buffer changes. STREAM_BLOCK_DONE of a running stream
takes the next block in turn, changing no byte outside it, or with no free block counts a gap and the samples lost. In
any other case each changes nothing but the alarm outputs. CAPTURE_WINDOW_ACCESS within a 4 KiB block reads or writes
the bytes at the window's base plus the offset (zeros, and nothing, where capture memory is out of use); one that
crosses a block is a fault. The part, device time, mode, start-up, trust and loop contexts stay. (Host Interface,
Master Selection and Queues: Capture channels; Host Interface, Master Selection and Queues: Streaming; Host Interface,
Master Selection and Queues: The capture window) -/
def Obligations.CapturesFillTheirBuffers : Prop :=
  ∀ s : State, (∀ (o : Fin 1073741824) (acc : WindowAccess), 4096 < o.val % 4096 + windowLen acc →
      exec (.captureWindowAccess o acc) s = .fault .crossesBlock)
    ∧ (Powered s → ∀ c : Fin 32,
      let get (d : Dev) (f : Nat → Fld) : Nat := rd d pgCAP (f c)
      let runs := get s.dev CAP.CAP_STAT_STATE = 1
      let lock := (hdr s.dev pgCAP).lock
      let mode := get s.dev CAP.CAP_CTRL_MODE
      let base := 4096 * get s.dev CAP.CAP_BUF_BASE
      let size := 4096 * get s.dev CAP.CAP_LEN_SIZE
      let done (e : Dev) (st : Nat) : Prop := get e CAP.CAP_STAT_STATE = st ∧ rawBit e pgCAP c = true
      let keeps (e : Dev) : Prop := OnlyPages s.dev e [pgCAP, pgHOST] ∧ SameCore s.dev e
      (∀ offs : Fin 524288, Does (.captureStartCmd c offs) s fun e =>
        if lock = true then TurnedAway s.dev e pgCAP
        else if runs then e = settle s.dev
        else if capStartOk s.dev c = true then get e CAP.CAP_STAT_STATE = 1 ∧ get e CAP.CAP_POS_POS = 0
            ∧ get e CAP.CAP_T0_LOOP = s.dev.devLoop % 4294967296 ∧ get e CAP.CAP_T1_OFFS = offs ∧ capRt e c = capCh0 ∧ keeps e
        else TurnedAway s.dev e pgCAP)
      ∧ (∀ l : List Sample, DoesMem (.captureStopCmd c l) s fun e m =>
          if lock = true then TurnedAway s.dev e pgCAP ∧ m = s.cap
          else if runs ∧ mode ≠ 0 then
            done e 3 ∧ (if mode = 1 then ∀ a, a < base ∨ base + size ≤ a → memRead m a = memRead s.cap a else m = s.cap) ∧ keeps e
          else e = settle s.dev ∧ m = s.cap)
      ∧ (∀ l : List Sample, DoesMem (.captureBufferFull c l) s fun e m =>
          if runs ∧ mode = 0 then
            let b := (capDataBytes s.dev c l).take size
            done e 2 ∧ get e CAP.CAP_POS_POS = b.length % 4294967296
              ∧ (∀ a, memRead m a = if base ≤ a ∧ a < base + b.length then b.getD (a - base) 0 else memRead s.cap a) ∧ keeps e
          else e = settle s.dev ∧ m = s.cap)
      ∧ (∀ (offs : Fin 524288) (l : List Sample) (x : Option Desc), DoesMem (.streamBlockDone c offs l x) s fun e m =>
          if runs ∧ mode = 2 then
            let k := capRt s.dev c
            let blocks := get s.dev CAP.CAP_LEN_SIZE / 16
            (if blocks ≤ k.filled.length then
              (k.lost = 0 → get e CAP.CAP_STAT_GAPS = min 65535 (get s.dev CAP.CAP_STAT_GAPS + 1))
                ∧ capRt e c = { k with lost := k.lost + l.length } ∧ m = s.cap
            else (capRt e c).next = (k.next + 1) % blocks ∧ (capRt e c).seq = (k.seq + 1) % 4294967296 ∧ (capRt e c).lost = 0
                ∧ (x = none → (capRt e c).filled = k.filled ++ [k.next])
                ∧ (∀ a, a < base + 65536 * k.next ∨ base + 65536 * k.next + 65536 ≤ a → memRead m a = memRead s.cap a
                    ∨ (∃ y, x = some y ∧ y.devAddr ≤ a ∧ a < y.devAddr + y.len)))
              ∧ OnlyPages s.dev e [pgCAP, pgHOST, pgDMA] ∧ SameCore s.dev e
          else e = settle s.dev ∧ m = s.cap)
      ∧ (∀ (o : Fin 1073741824) (n : Nat), o.val % 4096 + n ≤ 4096 → Does (.captureWindowAccess o (.read n)) s fun e =>
          let lo := 1073741824 * rd s.dev pgHOST HOST.CAP_WIN_BASE + o
          e.rep.out = .windowRead lo (if capUsable s.dev then memLoad s.cap lo n else List.replicate n 0) :: s.dev.rep.out
            ∧ OnlyRegs s.dev e [] ∧ SameCore s.dev e)
      ∧ (∀ (o : Fin 1073741824) (b : List Byte), o.val % 4096 + b.length ≤ 4096 →
          DoesMem (.captureWindowAccess o (.write b)) s fun e m =>
            let lo := 1073741824 * rd s.dev pgHOST HOST.CAP_WIN_BASE + o
            (∀ a, memRead m a = if capUsable s.dev = true ∧ lo ≤ a ∧ a < lo + b.length then b.getD (a - lo) 0 else memRead s.cap a)
              ∧ e.rep = s.dev.rep ∧ OnlyRegs s.dev e [] ∧ SameCore s.dev e))

/-- While the engine is powered: START_STEP_DONE of the step in progress passes to the next step on its conditions
(RAILS to ROM, closing an entry found open; IMAGE with the slot preferred and running; CONVERTER_CAL and FILTER_TEST
also by their alternatives; MONITOR to SAFE under MAINTENANCE, to AIR_ACQ at MASTER.READY, else to the wait for it;
AIR_ACQ to the survey), else fails it. START_STEP_TIMEOUT of steps 1 to 9 fails it with cause 1, AIR_ACQ with 8. A
failed step counts in FAILS, SAME_CNT and LAST_FAIL, takes its alternative into ALT, closes the journal entry with the
cause and waits for its retry, or the engine enters SAFE after three failures of one step in a row or eight.
START_RETRY begins again at RAILS or ROM. SURVEY_PHASE_END begins the ramp where every active segment is VALID, else
fails step 10; GAIN_RAMP_PHASE_END enters SERVICE, or RECOVERY under an alternative. BOOT_CLR_ALT asks for the set's
emptying; FT_RUN starts a filter test in TEST with no chain ON, else sets ERROR; on a locked page both set ERROR and
change no register. FILTER_TEST_DONE keeps only the marks of positions out of limits. In any other case each changes
nothing but the alarm outputs. The supply, device time and the part stay. (Start-up, Firmware Images and Trust: The
start steps; Start-up, Firmware Images and Trust: Failed attempts; Start-up, Firmware Images and Trust: The boot
journal; Start-up, Firmware Images and Trust: Air acquisition and the survey) -/
def Obligations.StartAttemptsStepThroughTheirSteps : Prop :=
  ∀ s : State, Powered s →
    let b := s.dev.boot
    let get (d : Dev) (f : Fld) : Nat := rd d pgBOOT f
    let st := get s.dev BOOT.BOOT_STAT_STEP
    let alt (k : Nat) : Bool := nbit (get s.dev BOOT.BOOT_STAT_ALT) k
    let keeps (e : Dev) : Prop := e.supply = s.dev.supply ∧ e.devLoop = s.dev.devLoop ∧ e.part = s.dev.part
    let starting := s.dev.mode = .start ∧ b.phase = .step
    let begun (e : Dev) (n : Nat) : Prop := e.boot.phase = .step ∧ get e BOOT.BOOT_STAT_STEP = n ∧ e.boot.passed = n - 1
      ∧ e.mode = .start
    let spent (e : Dev) : Prop := 3 ≤ sameFails e ∨ 8 ≤ chainFails e
    let failed (e : Dev) (n cause : Nat) : Prop :=
      (if 2 ≤ n then
        get e BOOT.BOOT_STAT_LAST_FAIL = n ∧ get e BOOT.BOOT_STAT_FAILS = min 15 (get s.dev BOOT.BOOT_STAT_FAILS + 1)
          ∧ get e BOOT.BOOT_STAT_SAME_CNT
              = (if get s.dev BOOT.BOOT_STAT_LAST_FAIL = n then min 15 (get s.dev BOOT.BOOT_STAT_SAME_CNT + 1) else 1)
          ∧ (match altBit n with
            | some k => nbit (get e BOOT.BOOT_STAT_ALT) k = true
            | none => get e BOOT.BOOT_STAT_ALT = get s.dev BOOT.BOOT_STAT_ALT)
          ∧ (match b.entryOpen, b.journal, e.boot.journal with
            | true, j :: t, j' :: t' => t' = t ∧ j'.attempt = j.attempt ∧ j'.result = 1 ∧ j'.cause = cause
            | true, _ :: _, [] => False
            | _, _, _ => e.boot.journal = b.journal)
          ∧ e.boot.entryOpen = false
      else e.boot.railsFails = b.railsFails + 1 ∧ e.boot.journal = b.journal)
        ∧ (if spent e then e.mode = .safe ∧ e.boot.phase = .ended
          else e.mode = s.dev.mode ∧ e.boot.phase = (if n = 1 then .retryRails else .retryRom))
    let rommed (e : Dev) (clean : Bool) : Prop := e.boot.slot = s.dev.trust.pref
      ∧ (if b.entryOpen = true ∧ clean = false ∧ spent e then e.mode = .safe ∧ e.boot.phase = .ended
        else begun e 2 ∧ e.boot.entryOpen = true)
      ∧ (if b.entryOpen = true ∧ b.railsFails = 0 then
          match b.journal, e.boot.journal with
          | j :: _, _ :: j' :: _ => j'.attempt = j.attempt ∧ j'.result = (if clean then 2 else 1) ∧ j'.cause = (if clean then 0 else 10)
          | _ :: _, _ => False
          | [], _ => True
        else True)
    let serviced (e : Dev) : Prop := e.boot.phase = .done ∧ get e BOOT.BOOT_STAT_STEP = 11 ∧ get e BOOT.BOOT_STAT_FAILS = 0
      ∧ e.mode = (if get e BOOT.BOOT_STAT_ALT = 0 then .service else .recovery)
    let surveyed (e : Dev) : Prop :=
      if s.dev.act = [] then serviced e
      else e.mode = .start ∧ get e BOOT.BOOT_STAT_STEP = 10 ∧ e.boot.passed = 9 ∧ e.boot.phase = (if alt 5 = true then .ramp else .survey)
    (∀ x : StepIn, Does (.startStepDone x) s fun e =>
        if starting ∧ 1 ≤ st ∧ st ≤ 9 then
          (match st with
          | 1 => if x.ok = true ∧ 1200 ≤ x.mj then rommed e s.dev.rep.tally.cleanMark else failed e 1 2
          | 2 => if x.ok then begun e 3 ∧ e.boot.slot = imageSlot s.dev else failed e 2 7
          | 3 =>
            let why := imageCause s.dev x.image (slotOf s.dev.trust b.slot).svn
            if why = 0 then begun e 4 ∧ e.trust.running = some b.slot ∧ e.trust.pref = b.slot
            else failed e 3 why ∧ e.boot.badSlot = b.slot
          | 4 => if x.ok then begun e 5 ∧ rd e pgCLK GCLK.CLK_STAT_DDR_MTS = (if alt 1 then 4800 else 5600) else failed e 4 2
          | 5 => if 2 ≤ x.clusters.eraseDups.length then failed e 5 2
            else get e BOOT.BOOT_STAT_STEP = 6 ∧ e.boot.passed = 5 ∧ (x.clusters = [] → begun e 6)
          | 6 =>
            let on := if alt 3 then begun e 8 else begun e 7
            if alt 2 then (if (∀ i : Fin 12, (storedSet s.dev.conv i).isSome = true) then on else failed e 6 7)
            else if s.dev.conv.running ≠ [] then e = settle s.dev
            else if rd s.dev pgCGLB CGLB.GLB_STAT_CAL_FAIL = 0 then on else failed e 6 2
          | 7 => (∀ (p : Fin 4) (q : Fin 8), nbit (rd e (pgPORT p) PORT.BAND_STAT_UNTESTED) q
                = (nbit (rd s.dev (pgPORT p) PORT.BAND_STAT_UNTESTED) q && decide ((p.val, q.val) ∈ x.filters)))
              ∧ (if x.filters = [] then begun e 8 else failed e 7 2)
          | 8 =>
            if x.ok = true ∧ rd s.dev pgMON MON.REF_STAT_FAIL0 = 0 ∧ rd s.dev pgMON MON.REF_STAT_FAIL1 = 0 then
              (if rd s.dev pgMODE MODE.STRAP_BOOT_MODE = 3 then e.mode = .safe ∧ e.boot.phase = .ended
              else rawBit e pgBOOT 1 = true
                ∧ (if rd s.dev pgHOST HOST.MASTER_READY = 0 then e.boot.phase = .waitMaster ∧ get e BOOT.BOOT_STAT_WAIT_MASTER = 1
                    ∧ e.boot.passed = 8 ∧ e.mode = .start
                  else if alt 4 then surveyed e else begun e 9))
            else failed e 8 2
          | _ => if clocksLocked s.dev then surveyed e else e = settle s.dev)
          ∧ keeps e
        else e = settle s.dev)
    ∧ (Does .startStepTimeout s fun e =>
        if starting ∧ 1 ≤ st ∧ st ≤ 9 then failed e st (if st = 9 then 8 else 1) ∧ keeps e else e = settle s.dev)
    ∧ (Does .startRetry s fun e =>
        if s.dev.mode = .start ∧ b.phase = .retryRails then begun e 1 ∧ e.boot.startCause = 3 ∧ keeps e
        else if s.dev.mode = .start ∧ b.phase = .retryRom then
          rommed e (s.dev.rep.tally.cleanMark || ((hdr s.dev pgTAL).enable && decide (rd s.dev pgGRN GRN.GRN_STAT_PARKED = 0)))
            ∧ e.boot.startCause = 3 ∧ keeps e
        else e = settle s.dev)
    ∧ (Does .surveyPhaseEnd s fun e =>
        if b.phase = .survey then
          (if (∀ n ∈ s.dev.act, isActive s.dev n = true → rd s.dev (pgSEG n) SEG.ISO_STAT_VALID ≠ 0) then
            (if s.dev.act = [] then serviced e else e.boot.phase = .ramp ∧ e.mode = s.dev.mode)
          else failed e 10 9) ∧ keeps e
        else e = settle s.dev)
    ∧ (Does .gainRampPhaseEnd s fun e => if b.phase = .ramp then serviced e ∧ keeps e else e = settle s.dev)
    ∧ (Does .bootClrAlt s fun e =>
        if (hdr s.dev pgBOOT).lock = true then TurnedAway s.dev e pgBOOT
        else if (hdr s.dev pgTRUST).enable = false then e = settle s.dev
        else e.boot = { b with clrAlt := true } ∧ OnlyRegs s.dev e [] ∧ e.trust = s.dev.trust ∧ e.mode = s.dev.mode ∧ keeps e)
    ∧ (Does .ftRun s fun e =>
        if (hdr s.dev pgBOOT).lock = true then TurnedAway s.dev e pgBOOT
        else if (hdr s.dev pgTRUST).enable = false then e = settle s.dev
        else if s.dev.mode = .test ∧ (∀ p : Fin 4, txState s.dev p ≠ txON) ∧ get s.dev BOOT.BOOT_PEND_FT_BUSY = 0 then
          get e BOOT.BOOT_PEND_FT_BUSY = 1 ∧ OnlyRegs s.dev e [(pgBOOT, 0x4C)] ∧ SameCore s.dev e
        else TurnedAway s.dev e pgBOOT)
    ∧ (∀ bad : List (Fin 4 × Fin 8), Does (.filterTestDone bad) s fun e =>
        if get s.dev BOOT.BOOT_PEND_FT_BUSY = 1 then
          get e BOOT.BOOT_PEND_FT_BUSY = 0 ∧ rawBit e pgBOOT 2 = true
            ∧ (∀ (p : Fin 4) (q : Fin 8), nbit (rd e (pgPORT p) PORT.BAND_STAT_UNTESTED) q
                = (nbit (rd s.dev (pgPORT p) PORT.BAND_STAT_UNTESTED) q && decide ((p, q) ∈ bad)))
            ∧ (∀ k : Fin 8, nbit (get e BOOT.BOOT_STAT_ALT) k
                = (alt k && ! (decide (k = 3) && decide (∀ p : Fin 4, rd e (pgPORT p) PORT.BAND_STAT_UNTESTED = 0))))
            ∧ SameCore s.dev e
        else e = settle s.dev)

/-- While the engine is powered: INJ_ARM in TEST of a configuration in range, the same as before while ARMED, stores
it, sets ARM and starts from SEEN 0; else it sets ERROR and changes no register. INJ_DISARM of the configuration in
force, or of another one in range while not ARMED, which is stored, and INJ_STOP_ALL for every injector, clear ARM and
leave the injector IDLE; else INJ_DISARM sets ERROR and changes no register. INJ_HOLD_TIMEOUT puts a held item back at
the front of its queue, lets a held frame of a talking slot go, and holds nothing more; with no frame or item held it
changes nothing but the alarm outputs. PROV_FORCE_GO in TEST with every source set implemented makes the set sources,
and the implemented ones of the cycle's real events, sticky besides those that were, with INT_RAW bit 8; else it sets
ERROR and registers the real events alone; without reactions or real events no register changes. LB_EXT_WRITE of 0, or
in TEST of a code without a reserved value, is stored; else it sets ERROR and changes no register. On a locked page
each (a write that would change nothing apart) sets ERROR and changes no register. The part, device time, mode, start-
up, trust and loop contexts stay, save where a held frame or item goes or a reaction follows. (Provoking Faults and
Loopbacks: Injection; Provoking Faults and Loopbacks: Injections that meet; Provoking Faults and Loopbacks: Forcing
across blocks; Provoking Faults and Loopbacks: Loopbacks) -/
def Obligations.InjectorsArmAndEndInTest : Prop :=
  ∀ s : State, Powered s →
    let lock := (hdr s.dev pgPROV).lock
    let inj (d : Dev) (i : Nat) : Inj := injOf d.rep i
    let holds (d : Dev) (i arm : Nat) (kind : BitVec 3) (action : BitVec 2) (dir : BitVec 1) (index : BitVec 16) : Prop :=
      rd d pgPROV (INJ.INJ_TGT_KIND i) = kind.toNat ∧ rd d pgPROV (INJ.INJ_TGT_ACTION i) = action.toNat
        ∧ rd d pgPROV (INJ.INJ_TGT_DIR i) = dir.toNat ∧ rd d pgPROV (INJ.INJ_TGT_INDEX i) = index.toNat
        ∧ (arm = 2 ∨ rd d pgPROV (INJ.INJ_TGT_ARM i) = arm)
    let inRange (kind : BitVec 3) (action : BitVec 2) (dir : BitVec 1) (index : BitVec 16) : Prop :=
      action ≠ 3 ∧ ((kind = 1 ∧ index.toNat < 512) ∨ (kind = 2 ∧ index.toNat < (if dir = 0 then 8 else 16))
        ∨ (kind = 3 ∧ (index.toNat < 0x4000 ∨ (0x4000 ≤ index.toNat ∧ index.toNat < 0x4008))))
    let away (e : Dev) : Prop := TurnedAway s.dev e pgPROV ∧ ∀ i : Fin 8, inj e i = inj s.dev i
    (∀ (i : Fin 8) (kind : BitVec 3) (action : BitVec 2) (dir : BitVec 1) (index : BitVec 16),
      Does (.injArm i kind action dir index) s fun e =>
        if lock = true ∧ ¬ holds s.dev i 1 kind action dir index then away e
        else if s.dev.mode = .test ∧ inRange kind action dir index ∧ ((inj s.dev i).state = 1 → holds s.dev i 2 kind action dir index) then
          inj e i = { inj s.dev i with state := 1, seen := 0, last := 0, lfsr := BitVec.ofNat 16 (rd s.dev pgPROV (INJ.INJ_SPC_SEED i)) }
            ∧ holds e i 1 kind action dir index ∧ OnlyRegs s.dev e [(pgPROV, 0x80 + 0x20 * i)] ∧ SameCore s.dev e
        else away e)
    ∧ (∀ (i : Fin 8) (kind : BitVec 3) (action : BitVec 2) (dir : BitVec 1) (index : BitVec 16),
        Does (.injDisarm i kind action dir index) s fun e =>
          if lock = true ∧ ¬ holds s.dev i 0 kind action dir index then away e
          else if holds s.dev i 2 kind action dir index ∨ ((inj s.dev i).state ≠ 1 ∧ inRange kind action dir index) then
            (inj e i).state = 0 ∧ holds e i 0 kind action dir index
              ∧ ((inj s.dev i).held = none → inj e i = { inj s.dev i with state := 0 }
                  ∧ OnlyRegs s.dev e [(pgPROV, 0x80 + 0x20 * i)] ∧ SameCore s.dev e)
          else away e)
    ∧ (Does .injStopAll s fun e =>
        if lock = true then away e
        else (∀ i : Fin 8, (inj e i).state = 0 ∧ rd e pgPROV (INJ.INJ_TGT_ARM i) = 0)
          ∧ ((∀ i : Fin 8, (inj s.dev i).held = none) → OnlyPages s.dev e [pgPROV] ∧ SameCore s.dev e))
    ∧ (∀ i : Fin 8, Does (.injHoldTimeout i) s fun e =>
        match (inj s.dev i).held with
        | some [_, 2, t, 0] => (inj e i).held = none
            ∧ (match heldTxOf s.dev t with
              | some (msg, _) => heldTxOf e t = some (msg, true)
              | none => e.lnk = s.dev.lnk)
            ∧ OnlyRegs s.dev e [] ∧ SameCore s.dev e
        | some [_, 2, l, _] => heldRxOf e l = none ∧ (heldRxOf s.dev l = none → (inj e i).held = none ∧ OnlyRegs s.dev e [])
        | some [_, 3, index, _] =>
          let k := if index < 0x4000 then index else 0x10000 + (index - 0x4000)
          match (queueOf s.dev.rep k).kept with
          | some h => (rd s.dev pgRING (RING.RING_CFG_EN (rd s.dev (qPage k) (QB.Q_CFG_RING (qBlk k)))) = 0 →
              (inj e i).held = none ∧ (queueOf e.rep k).kept = none
                ∧ (queueOf e.rep k).items = h :: (queueOf s.dev.rep k).items ∧ OnlyRegs s.dev e []) ∧ SameCore s.dev e
          | none => (inj e i).held = none ∧ OnlyRegs s.dev e [] ∧ SameCore s.dev e
        | _ => e = settle s.dev)
    ∧ (∀ (cycle : Fin 37500) (real : List (Fin 256)), Does (.provForceGo cycle real) s fun e =>
        let set (j : Nat) : Bool := (rd s.dev pgPROV (PROV.FRC_MASK_MASK (j / 32)) / 2 ^ (j % 32)) % 2 == 1
        let old (j : Fin 256) : Bool := s.dev.rep.flt.sticky.getLsbD j
        let quiet := real = [] ∧ rd s.dev pgFLT FLT.FLT_CFG_FORCE_REACT = 0
        (if lock = false ∧ s.dev.mode = .test ∧ (∀ j : Fin 256, set j = true → (srcInfo j).isSome = true) then
          (∀ j : Fin 256, e.rep.flt.sticky.getLsbD j = (old j || set j || (decide (j ∈ real) && (srcInfo j).isSome)))
            ∧ rawBit e pgPROV 8 = true
        else (hdr e pgPROV).error = true
          ∧ ∀ j : Fin 256, e.rep.flt.sticky.getLsbD j = (old j || (decide (j ∈ real) && (srcInfo j).isSome)))
          ∧ (quiet → OnlyRegs s.dev e [] ∧ SameCore s.dev e))
    ∧ (∀ v : BitVec 8, Does (.lbExtWrite v) s fun e =>
        if lock = true ∧ rd s.dev pgPROV PROV.LB_EXT_LB ≠ v.toNat then away e
        else if (v = 0 ∨ s.dev.mode = .test) ∧ (∀ k : Fin 4, v.toNat / 4 ^ k.val % 4 < 2) then
          rd e pgPROV PROV.LB_EXT_LB = v.toNat ∧ SameCore s.dev e
        else away e)

/-- While the engine is powered: TAL_FLUSH_CMD and TAL_FLUSH_TIMER take every staged record, or wait for the flush or
erase in progress; they do nothing with nothing staged, in isolation or in the parked Granary. TAL_FLUSH_COMMIT of a
flush frees the slots taken and writes their records to FIRST while that has room, then to LAST, its oldest giving
way, with INT_RAW bit 0. COUNTER_STORE_TIMER stores OP_SEC and PCYC. WALL_SET sets the clock and stages a WALL_STEP
record with the old value's two snapshots, or sets ERROR for 0. TALLY_CLEAR with a matching held token and room in the
annex begins the erase, counts it, writes the CLEARED record and uses the token up; else its STATE refuses with bit 3.
TALLY_ERASE_DONE of an erase empties the named areas with bit 5. TALLY_READ and TALLY_EXPORT begin a fetch or an
export, and set ERROR while one runs or beyond capture memory; TALLY_FETCH_DONE returns the record named or NOT_FOUND,
TALLY_EXPORT_DONE stores the records from the destination on and changes no other byte, each with INT_RAW. On a locked
page a command of the host sets ERROR and changes no register. In any other case each changes nothing but the alarm
outputs. The part, device time, mode, start-up, trust (but for the token) and loop contexts stay. (Tally Event
Recorder and the Granary: Staging and flush; Tally Event Recorder and the Granary: Time and counters; Tally Event
Recorder and the Granary: Clearing; Tally Event Recorder and the Granary: Reading and export; Tally Event Recorder and
the Granary: Isolation) -/
def Obligations.TallyKeepsItsRecords : Prop :=
  ∀ s : State, Powered s →
    let t := s.dev.rep.tally
    let u (e : Dev) : Tally := e.rep.tally
    let inUse : Bool := (hdr s.dev pgTAL).enable
    let lock : Bool := (hdr s.dev pgTAL).lock
    let lockRd : Bool := (hdr s.dev pgTRD).lock
    let parkedNow : Bool := decide (rd s.dev pgGRN GRN.GRN_STAT_PARKED = 1)
    let flushed (e : Dev) : Prop :=
      if t.staged = [] ∨ inUse = false ∨ parkedNow = true then e = settle s.dev
      else (if t.flushing = true ∨ t.erasing ≠ 0 then u e = { t with again := true }
        else u e = { t with flushing := true, staged := t.staged.map fun x => { x with taken := true } })
        ∧ OnlyRegs s.dev e [] ∧ SameCore s.dev e
    let taken : List TRec := (t.staged.filter fun x => x.taken).map fun x => x.rcd
    (Does .talFlushCmd s fun e => if lock = true then TurnedAway s.dev e pgTAL else flushed e)
    ∧ Does .talFlushTimer s flushed
    ∧ (Does .talFlushCommit s fun e =>
        if t.flushing = true ∧ inUse = true ∧ parkedNow = false then
          let room := 4096 - t.first.length
          let rest := (taken.drop room).map fun x => { x with area := 1 }
          rawBit e pgTAL 0 = true
            ∧ (u e).first = t.first ++ (taken.take room).map (fun x => { x with area := 0 })
            ∧ (t.last.length ≤ 262144 → (u e).last = (t.last ++ rest).drop (t.last.length + rest.length - 262144))
            ∧ (u e).annex = t.annex
            ∧ (t.pendRec = none → t.deferred = [] → t.again = false →
                (u e).staged = (t.staged.filter fun x => ! x.taken) ∧ (u e).flushing = false)
            ∧ OnlyRegs s.dev e [] ∧ SameCore s.dev e
        else e = settle s.dev)
    ∧ (Does .counterStoreTimer s fun e =>
        if parkedNow = true then e = settle s.dev
        else u e = { t with storedOps := t.opSec, storedPcyc := t.pcyc } ∧ OnlyRegs s.dev e [] ∧ SameCore s.dev e)
    ∧ (∀ hi : Word, Does (.wallSet hi) s fun e =>
        let v := 4294967296 * hi.toNat + t.wallLo
        if lock = true ∧ t.wall / 4294967296 % 4294967296 ≠ hi.toNat then TurnedAway s.dev e pgTAL
        else if v = 0 then TurnedAway s.dev e pgTAL ∧ (u e).wall = t.wall
        else (u e).wall = v
            ∧ (t.on = true → t.staged = [] → t.next < 281474976710656 → ∃ x, (u e).staged = [⟨x, false⟩] ∧ (u e).next = t.next + 1
                ∧ x.code = 0x3001 ∧ x.source = 0xE0 ∧ x.seq = t.next ∧ x.wall = v
                ∧ x.snaps = [(0xE0, 0x5C, t.wall % 4294967296), (0xE0, 0x60, t.wall / 4294967296 % 4294967296)])
            ∧ OnlyRegs s.dev e [] ∧ SameCore s.dev e)
    ∧ (∀ areas : BitVec 2, Does (.tallyClear areas) s fun e =>
        let token : Bool := match s.dev.trust.held with
          | some (1, g, _) => decide (g % 4 = areas.toNat ∧ areas ≠ 0)
          | _ => false
        let refused (st : Nat) : Prop := rd e pgTAL TAL.CLR_STAT_STATE = st ∧ rawBit e pgTAL 3 = true
          ∧ (u e).first = t.first ∧ (u e).last = t.last ∧ (u e).annex = t.annex ∧ (u e).clearCnt = t.clearCnt
          ∧ (u e).erasing = t.erasing ∧ e.trust = s.dev.trust
        if lock = true then TurnedAway s.dev e pgTAL
        else if inUse = false then e = settle s.dev
        else (if t.erasing ≠ 0 then refused 5
          else if token = false then refused 3
          else if 256 ≤ t.annex.length then refused 4
          else rd e pgTAL TAL.CLR_STAT_STATE = 1 ∧ (u e).erasing = 4 + areas.toNat ∧ (u e).clearCnt = t.clearCnt + 1
            ∧ (u e).staged = [] ∧ e.trust = { s.dev.trust with held := none } ∧ rd e pgTRUST TRUST.TOK_STAT_STATE = 10
            ∧ (t.pendRec = none → t.next < 281474976710656 → ∃ x, (u e).annex = t.annex ++ [x] ∧ x.code = 0x3002
                ∧ x.source = s.dev.trust.heldKey ∧ x.seq = t.next ∧ (u e).next = t.next + 1))
          ∧ OnlyPages s.dev e [pgTAL, pgTRUST] ∧ e.mode = s.dev.mode ∧ e.boot = s.dev.boot ∧ e.devLoop = s.dev.devLoop
          ∧ e.part = s.dev.part ∧ e.ctxs = s.dev.ctxs)
    ∧ (Does .tallyEraseDone s fun e =>
        if t.erasing = 0 then e = settle s.dev
        else (u e).first = (if t.erasing % 2 = 1 then [] else t.first) ∧ (u e).last = (if t.erasing / 2 % 2 = 1 then [] else t.last)
          ∧ (u e).annex = t.annex ∧ (u e).erasing = 0 ∧ rd e pgTAL TAL.CLR_STAT_STATE = 2 ∧ rawBit e pgTAL 5 = true
          ∧ OnlyPages s.dev e [pgTAL] ∧ SameCore s.dev e)
    ∧ (∀ (mode : BitVec 2) (idx : BitVec 19), Does (.tallyRead mode idx) s fun e =>
        if lockRd = true then TurnedAway s.dev e pgTRD
        else if inUse = false then e = settle s.dev
        else if rd s.dev pgTRD TRD.RD_STAT_STATE = 1 then TurnedAway s.dev e pgTRD ∧ u e = t
        else rd e pgTRD TRD.RD_STAT_STATE = 1
            ∧ u e = { t with fetch := some (mode.toNat, (if mode = 3 then
                rd s.dev pgTRD TRD.RD_SEQ_HI_RD_SEQ * 4294967296 + rd s.dev pgTRD TRD.RD_SEQ_LO_RD_SEQ else idx.toNat), 0) }
          ∧ OnlyPages s.dev e [pgTRD] ∧ SameCore s.dev e)
    ∧ (Does .tallyFetchDone s fun e =>
        match t.fetch with
        | none => e = settle s.dev
        | some (mode, k, _) =>
          (match findRec t mode k with
          | none => rd e pgTRD TRD.RD_STAT_STATE = 3
          | some x => rd e pgTRD TRD.RD_STAT_STATE = 2 ∧ rd e pgTRD TRD.RD_STAT_CRC_OK = b2n x.crcOk
              ∧ ∀ i : Fin 32, rd e pgTRD (TRD.RD_DATA_DWORD i) = (recDwords x).getD i 0 % 4294967296)
          ∧ u e = { t with fetch := none } ∧ rawBit e pgTRD 0 = true ∧ OnlyPages s.dev e [pgTRD] ∧ SameCore s.dev e)
    ∧ (∀ annex : Bool, Does (.tallyExport annex) s fun e =>
        let cnt := rd s.dev pgTRD TRD.EXP_CNT_COUNT
        let dest := 4096 * rd s.dev pgTRD TRD.EXP_DEST_DEST
        let seq := rd s.dev pgTRD TRD.EXP_SEQ_HI_EXP_SEQ * 4294967296 + rd s.dev pgTRD TRD.EXP_SEQ_LO_EXP_SEQ
        if lockRd = true then TurnedAway s.dev e pgTRD
        else if inUse = false then e = settle s.dev
        else if rd s.dev pgTRD TRD.EXP_STAT_STATE = 1 ∨ 25769803776 < dest + 128 * (if annex then t.annex.length else cnt) then
          TurnedAway s.dev e pgTRD ∧ u e = t
        else rd e pgTRD TRD.EXP_STAT_STATE = 1 ∧ rd e pgTRD TRD.EXP_STAT_WRITTEN = 0
            ∧ u e = { t with exporting := some (seq, cnt, dest, annex) }
          ∧ OnlyPages s.dev e [pgTRD] ∧ SameCore s.dev e)
    ∧ (DoesMem .tallyExportDone s fun e m =>
        match t.exporting with
        | none => e = settle s.dev ∧ m = s.cap
        | some (seq, cnt, dest, annex) =>
          let l := exportList t annex seq cnt
          let b := l.flatMap fun x => dwordBytes (recDwords x)
          rd e pgTRD TRD.EXP_STAT_STATE = 2 ∧ rd e pgTRD TRD.EXP_STAT_WRITTEN = l.length % 1048576 ∧ rawBit e pgTRD 1 = true
            ∧ u e = { t with exporting := none }
            ∧ (∀ a, memRead m a = if capUsable s.dev ∧ dest ≤ a ∧ a < dest + b.length then b.getD (a - dest) 0 else memRead s.cap a)
            ∧ OnlyPages s.dev e [pgTRD] ∧ SameCore s.dev e)

/-- While the engine is powered: IMAGE_INSTALL into a slot that does not run, outside START, of an image in capture
memory with the right MAGIC, FORMAT, key, signature, SVN and digest, begins with STATE 2 and the slot not valid; into
the running slot it is refused with STATE 8, isolated with 9, otherwise with the failing check's STATE (one of 4 to 7
for MAGIC and FORMAT), each with INT_RAW bit 1. IMAGE_INSTALL_DONE makes the slot valid with the new version, and
preferred where asked, with STATE 3 and bit 0, or fails with STATE 9. ATTEST takes the next index, reserves 64 more
where none is left, ends with STATE 2 and bit 1 and changes no byte outside the report and its signature, and none
where capture memory is out of use; with no index left it ends with STATE 3, isolated with 4. TOKEN_CHECK shows the
first refusal or 2; a refused token leaves all but the held token; an accepted one is held for 60 s, enrols or removes
a key, sets NODE_ID or MIN_SVN, and moves TOKEN_CNT unless it is a Tally clear. TOKEN_HOLD_EXPIRE ends a held token in
its last second with STATE 11. On a locked page, beyond capture memory, or in START or with an install in progress, a
request sets ERROR and changes no register. In any other case each changes nothing but the alarm outputs. The part,
device time, supply, mode and start-up stay. (Start-up, Firmware Images and Trust: Ovminte images; Start-up, Firmware
Images and Trust: Verifying an image; Start-up, Firmware Images and Trust: Attestation; Start-up, Firmware Images and
Trust: Operator keys and tokens; Start-up, Firmware Images and Trust: Records of this chapter) -/
def Obligations.ImagesReportsAndTokensAreChecked : Prop :=
  ∀ s : State, Powered s →
    let t := s.dev.trust
    let lock : Bool := (hdr s.dev pgTRUST).lock
    let out : Bool := ! (hdr s.dev pgTRUST).enable
    let keeps (e : Dev) : Prop := e.part = s.dev.part ∧ e.devLoop = s.dev.devLoop ∧ e.supply = s.dev.supply ∧ e.mode = s.dev.mode
      ∧ e.boot = s.dev.boot
    (∀ (slot : Fin 2) (pref sigOk digestOk : Bool), Does (.imageInstall slot pref sigOk digestOk) s fun e =>
      let a := 4096 * rd s.dev pgIMG IMG.IMG_SRC_SRC
      let svn := memField s.cap (a + 12) 4
      let ended (lo hi : Nat) : Prop := lo ≤ rd e pgIMG IMG.IMG_RES_STATE ∧ rd e pgIMG IMG.IMG_RES_STATE ≤ hi
        ∧ rawBit e pgIMG 1 = true ∧ e.trust = t ∧ OnlyPages s.dev e [pgIMG] ∧ keeps e
      if (hdr s.dev pgIMG).lock = true then TurnedAway s.dev e pgIMG
      else if out = true then ended 9 9
      else if s.dev.mode = .start ∨ t.install ≠ none ∨ 25769803776 < a + rd s.dev pgIMG IMG.IMG_LEN_LEN then TurnedAway s.dev e pgIMG
      else if t.running = some slot.val then ended 8 8
      else if memField s.cap a 4 ≠ 0x314D564F ∨ memField s.cap (a + 4) 2 ≠ 1 then ended 4 7
      else match t.imgKeys[memField s.cap (a + 0x18) 1]? with
        | none => ended 7 7
        | some k =>
          if k.sigType ≠ memField s.cap (a + 6) 2 then ended 7 7
          else if sigOk = false then ended 4 4
          else if svn < t.minSvn then ended 6 6
          else if digestOk = false then ended 5 5
          else rd e pgIMG IMG.IMG_RES_STATE = 2 ∧ e.trust.install = some (slot.val, memField s.cap (a + 8) 4, svn, pref)
            ∧ (slotOf e.trust slot).valid = false ∧ slotOf e.trust (1 - slot.val) = slotOf t (1 - slot.val)
            ∧ OnlyPages s.dev e [pgIMG] ∧ keeps e)
    ∧ (∀ ok : Bool, Does (.imageInstallDone ok) s fun e =>
        match t.install with
        | none => e = settle s.dev
        | some (slot, ver, svn, pref) =>
          e.trust.install = none
            ∧ (if ok = true ∧ out = false then rd e pgIMG IMG.IMG_RES_STATE = 3 ∧ rawBit e pgIMG 0 = true
                  ∧ slotOf e.trust slot = ⟨ver, svn, true, false⟩ ∧ slotOf e.trust (1 - slot) = slotOf t (1 - slot)
                  ∧ e.trust.pref = (if pref then slot else t.pref)
                else rd e pgIMG IMG.IMG_RES_STATE = 9 ∧ rawBit e pgIMG 1 = true ∧ e.trust = { t with install := none })
            ∧ OnlyRegs s.dev e [(pgIMG, 0x58)] ∧ keeps e)
    ∧ (DoesMem .attest s fun e m =>
        let a := 4096 * rd s.dev pgTRUST TRUST.ATT_DEST_DEST
        if lock = true then TurnedAway s.dev e pgTRUST ∧ m = s.cap
        else if out = true then rd e pgTRUST TRUST.ATT_STAT_STATE = 4 ∧ rawBit e pgTRUST 1 = true ∧ m = s.cap ∧ e.trust = t
          ∧ OnlyPages s.dev e [pgTRUST] ∧ keeps e
        else if 25769803776 < a + 2948 then TurnedAway s.dev e pgTRUST ∧ m = s.cap
        else (if 1048576 ≤ t.attNext then rd e pgTRUST TRUST.ATT_STAT_STATE = 3 ∧ rawBit e pgTRUST 1 = true
            ∧ rawBit e pgTRUST 3 = true ∧ m = s.cap ∧ e.trust = t
          else rd e pgTRUST TRUST.ATT_STAT_STATE = 2 ∧ rawBit e pgTRUST 1 = true ∧ e.trust.attNext = t.attNext + 1
            ∧ e.trust.attRes = (if t.attRes ≤ t.attNext then min 1048576 (t.attRes + 64) else t.attRes)
            ∧ (1048576 - (t.attNext + 1) ≤ 65536 → t.attLow = false → rawBit e pgTRUST 2 = true ∧ e.trust.attLow = true)
            ∧ (∀ i, i < a ∨ a + 2948 ≤ i ∨ capUsable s.dev = false → memRead m i = memRead s.cap i))
          ∧ OnlyPages s.dev e [pgTRUST] ∧ keeps e)
    ∧ (∀ sigOk : Bool, Does (.tokenCheck sigOk) s fun e =>
        let a := 4096 * rd s.dev pgTRUST TRUST.TOK_SRC_SRC
        let len := rd s.dev pgTRUST TRUST.TOK_LEN_LEN
        let action := memField s.cap (a + 1) 1
        let arg := memField s.cap (a + 0x10) 4
        let st := tokenState s.dev s.cap a len sigOk
        if lock = true ∨ 25769803776 < a + len then TurnedAway s.dev e pgTRUST
        else rd e pgTRUST TRUST.TOK_STAT_STATE = st ∧ rd e pgTRUST TRUST.TOK_STAT_ACTION = action ∧ rawBit e pgTRUST 0 = true
            ∧ (out = true → st = 9)
            ∧ (st ≠ 2 → e.trust = { t with held := none })
            ∧ (st = 2 → e.trust.tokenCnt = (if action = 1 then t.tokenCnt else (t.tokenCnt + 1) % 4294967296)
                ∧ (action ≤ 2 → e.trust.held = some (action, arg, 60) ∧ e.trust.heldKey = memField s.cap (a + 2) 1)
                ∧ (action = 3 → opKey' e.trust arg = some (keyAt s.cap (a + 0x20)) ∧ rawBit e pgTRUST 4 = true)
                ∧ (action = 4 → opKey' e.trust arg = none ∧ rawBit e pgTRUST 4 = true)
                ∧ (action = 5 → rd e pgPRB PRB.NODE_NODE_ID = arg ∧ e.trust.nodeId = arg)
                ∧ (action = 6 → e.trust.minSvn = arg))
          ∧ OnlyPages s.dev e [pgTRUST, pgPRB] ∧ keeps e)
    ∧ (Does .tokenHoldExpire s fun e =>
        match t.held with
        | some (_, _, ttl) =>
          if 1 < ttl then e = settle s.dev
          else e.trust = { t with held := none } ∧ rd e pgTRUST TRUST.TOK_STAT_STATE = 11
              ∧ OnlyRegs s.dev e [(pgTRUST, 0x50)] ∧ e.rep = s.dev.rep ∧ keeps e
        | none => e = settle s.dev)

/-- For every powered state and every TOK_SRC, with the trust page unlocked and in use: while no operator key is
enrolled and the strap is MAINTENANCE, ENROLL_FIRST puts the key whose 68 bytes begin at TOK_SRC x 4 KiB into slot 0
and into no other; with a key enrolled in some slot, with another strap, where the 68 bytes do not lie in capture
memory, or with the page locked or isolated, no key changes and the page's ERROR is set. So once a key is enrolled,
ENROLL_FIRST enrols none: every later enrolment needs a token. The other slots, the counters of the trust store and
every register stay. (R457) -/
def Obligations.TheFirstKeyIsEnrolled : Prop :=
  ∀ s : State, Powered s →
    Does .enrollFirst s fun e =>
      let a := 4096 * rd s.dev pgTRUST TRUST.TOK_SRC_SRC
      (if (hdr s.dev pgTRUST).enable = true ∧ Unlocked s.dev pgTRUST ∧ (∀ k : Fin 8, opKey' s.dev.trust k = none) ∧ rd s.dev pgMODE MODE.STRAP_BOOT_MODE = 3 ∧ a + 68 ≤ 25769803776 then
        (∃ key, opKey' e.trust 0 = some key ∧ key.dwords.length = 17
            ∧ ∀ i : Fin 17, key.dwords.getD i 0 = leNat [memRead s.cap (a + 4 * i), memRead s.cap (a + 4 * i + 1),
                memRead s.cap (a + 4 * i + 2), memRead s.cap (a + 4 * i + 3)])
          ∧ (∀ k : Fin 8, k ≠ 0 → opKey' e.trust k = none) ∧ rawBit e pgTRUST 4 = true
      else e.trust = s.dev.trust ∧ (hdr e pgTRUST).error = true)
        ∧ { e.trust with opKeys := s.dev.trust.opKeys } = s.dev.trust ∧ OnlyRegs s.dev e [] ∧ e.boot = s.dev.boot ∧ e.mode = s.dev.mode
end

