-- ==== Sys2Proof/Decode.lean ====
section
/-!
DEFINITION. Words of commands: the opcode table gives no row any bits, so no word spells a command.
-/

namespace Sys2Proof

/-- The command that a word spells: none. -/
def decodeTableWord (_nbits _w : Nat) : Option Instr := none

end Sys2Proof
end

