-- ==== Sys2Proof/Laws/Table.lean ====
section
/-!
SUPPORT. Laws of sparse tables and of capture memory: read after write, and the canonical form.
-/

namespace Sys2Proof.Machine

set_option Elab.async false

theorem tget_terase {α : Type} (dflt : Nat → α) :
    ∀ (t : Table α) (k i : Nat), tget dflt (terase t k) i = if i = k then dflt i else tget dflt t i
  | [], k, i => by simp [terase, tget]
  | (j, w) :: t, k, i => by
    have ih := tget_terase dflt t k i
    by_cases h : j = k
    · rw [terase, if_pos h, ih]
      by_cases e : i = k
      · simp [e]
      · have : j ≠ i := by omega
        simp [e, tget, this]
    · rw [terase, if_neg h, tget, ih]
      by_cases e : j = i
      · have : i ≠ k := by omega
        simp [tget, e, this]
      · simp [tget, e]

theorem tget_tinsert {α : Type} (dflt : Nat → α) (v : α) :
    ∀ (t : Table α) (k i : Nat), (∀ e ∈ t, e.1 ≠ k) →
      tget dflt (tinsert t k v) i = if i = k then v else tget dflt t i
  | [], k, i, _ => by
    by_cases e : i = k
    · simp [tinsert, tget, e]
    · simp [tinsert, tget, e, Ne.symm e]
  | (j, w) :: t, k, i, h => by
    have hj : j ≠ k := h (j, w) (by simp)
    have ih := tget_tinsert dflt v t k i fun e he => h e (by simp [he])
    rw [tinsert]
    split
    · by_cases e : i = k
      · simp [tget, e]
      · simp [tget, e, Ne.symm e]
    · by_cases e : j = i
      · have : i ≠ k := by omega
        simp [tget, e, this]
      · simp [tget, e, ih]

theorem terase_key {α : Type} : ∀ (t : Table α) (k : Nat), ∀ e ∈ terase t k, e ∈ t ∧ e.1 ≠ k
  | [], _, e, he => by simp [terase] at he
  | (j, w) :: t, k, e, he => by
    have ih := terase_key t k e
    rw [terase] at he
    split at he
    · exact ⟨List.mem_cons_of_mem _ (ih he).1, (ih he).2⟩
    · rcases List.mem_cons.1 he with rfl | h
      · exact ⟨List.mem_cons_self .., by assumption⟩
      · exact ⟨List.mem_cons_of_mem _ (ih h).1, (ih h).2⟩

/-- A key reads what was last put there; every other key reads as before. -/
theorem tget_tset {α : Type} [DecidableEq α] (dflt : Nat → α) (t : Table α) (k : Nat) (v : α) (i : Nat) :
    tget dflt (tset dflt t k v) i = if i = k then v else tget dflt t i := by
  rw [tset]
  split
  · rename_i h
    rw [tget_terase]
    by_cases e : i = k <;> simp [e, h]
  · rw [tget_tinsert dflt v _ k i fun e he => (terase_key t k e he).2, tget_terase]
    by_cases e : i = k <;> simp [e]

@[simp] theorem tget_tset_same {α : Type} [DecidableEq α] (dflt : Nat → α) (t : Table α) (k : Nat) (v : α) :
    tget dflt (tset dflt t k v) k = v := by simp [tget_tset]

theorem tget_tset_ne {α : Type} [DecidableEq α] (dflt : Nat → α) (t : Table α) {k i : Nat} (v : α) (h : i ≠ k) :
    tget dflt (tset dflt t k v) i = tget dflt t i := by simp [tget_tset, h]

/-! The canonical form -/

theorem tabove_iff {α : Type} (b : Nat) (t : Table α) : tabove b t = true ↔ ∀ e ∈ t, b < e.1 := by
  simp [tabove]

theorem tabove_terase {α : Type} {t : Table α} {b : Nat} (k : Nat) (h : tabove b t = true) :
    tabove b (terase t k) = true := by
  rw [tabove_iff] at h ⊢
  exact fun e he => h e (terase_key t k e he).1

theorem tinsert_mem {α : Type} (v : α) : ∀ (t : Table α) (k : Nat), ∀ e ∈ tinsert t k v, e = (k, v) ∨ e ∈ t
  | [], k, e, he => by simpa [tinsert] using he
  | (j, w) :: t, k, e, he => by
    have ih := tinsert_mem v t k e
    rw [tinsert] at he
    split at he
    · simpa using he
    · rcases List.mem_cons.1 he with rfl | h
      · simp
      · rcases ih h with h | h <;> simp [h]

theorem twf_terase {α : Type} [DecidableEq α] (dflt : Nat → α) :
    ∀ (t : Table α) (k : Nat), twf dflt t = true → twf dflt (terase t k) = true
  | [], _, _ => rfl
  | (j, w) :: t, k, h => by
    simp only [twf, Bool.and_eq_true, decide_eq_true_eq] at h
    have ih := twf_terase dflt t k h.2
    rw [terase]
    split
    · exact ih
    · simp only [twf, Bool.and_eq_true, decide_eq_true_eq]
      exact ⟨⟨tabove_terase k h.1.1, h.1.2⟩, ih⟩

theorem twf_tinsert {α : Type} [DecidableEq α] (dflt : Nat → α) (v : α) :
    ∀ (t : Table α) (k : Nat), (∀ e ∈ t, e.1 ≠ k) → v ≠ dflt k → twf dflt t = true →
      twf dflt (tinsert t k v) = true
  | [], k, _, hv, _ => by simp [tinsert, twf, tabove, hv]
  | (j, w) :: t, k, hk, hv, h => by
    have h' := h
    simp only [twf, Bool.and_eq_true, decide_eq_true_eq] at h'
    have hj : j ≠ k := hk (j, w) (by simp)
    rw [tinsert]
    split
    · rename_i hlt
      simp only [twf, Bool.and_eq_true, decide_eq_true_eq]
      refine ⟨⟨?_, hv⟩, h'⟩
      rw [tabove_iff] at h' ⊢
      intro e he
      rcases List.mem_cons.1 he with rfl | he
      · exact hlt
      · exact Nat.lt_trans hlt (h'.1.1 e he)
    · simp only [twf, Bool.and_eq_true, decide_eq_true_eq]
      refine ⟨⟨?_, h'.1.2⟩, twf_tinsert dflt v t k (fun e he => hk e (by simp [he])) hv h'.2⟩
      rw [tabove_iff] at h' ⊢
      intro e he
      rcases tinsert_mem v t k e he with rfl | he
      · show j < k
        omega
      · exact h'.1.1 e he

/-- Every write keeps the canonical form. -/
theorem twf_tset {α : Type} [DecidableEq α] (dflt : Nat → α) {t : Table α} (k : Nat) (v : α)
    (h : twf dflt t = true) : twf dflt (tset dflt t k v) = true := by
  rw [tset]
  split
  · exact twf_terase dflt t k h
  · rename_i hv
    exact twf_tinsert dflt v _ k (fun e he => (terase_key t k e he).2) hv (twf_terase dflt t k h)

/-! Capture memory -/

theorem memWrite_wf {m : Mem} (a : Nat) (b : Byte) (h : twf (fun _ => (0 : Byte)) m = true) :
    twf (fun _ => (0 : Byte)) (memWrite m a b) = true := twf_tset _ a b h

/-- A byte reads what was written to it, and every other byte reads as before. -/
theorem memRead_memWrite (m : Mem) (a : Nat) (b : Byte) (i : Nat) :
    memRead (memWrite m a b) i = if i = a then b else memRead m i := tget_tset _ m a b i

/-- Every store keeps the canonical form. -/
theorem memStore_wf : ∀ (l : List Byte) (m : Mem) (a : Nat), twf (fun _ => (0 : Byte)) m = true →
    twf (fun _ => (0 : Byte)) (memStore m a l) = true
  | [], _, _, h => h
  | b :: t, m, a, h => memStore_wf t (memWrite m a b) (a + 1) (memWrite_wf a b h)

/-- A store of bytes changes those bytes and no other. -/
theorem memRead_memStore : ∀ (l : List Byte) (m : Mem) (a i : Nat),
    memRead (memStore m a l) i = if a ≤ i ∧ i < a + l.length then l.getD (i - a) 0 else memRead m i
  | [], m, a, i => by
    rw [if_neg (by simp only [List.length_nil]; omega)]
    rfl
  | b :: t, m, a, i => by
    rw [memStore, memRead_memStore t (memWrite m a b) (a + 1) i, memRead_memWrite, List.length_cons]
    by_cases h1 : i = a
    · subst h1
      rw [if_neg (by omega), if_pos rfl, if_pos (by omega), Nat.sub_self]
      rfl
    · by_cases h2 : a + 1 ≤ i ∧ i < a + 1 + t.length
      · obtain ⟨k, rfl⟩ : ∃ k, i = a + 1 + k := ⟨i - (a + 1), by omega⟩
        rw [if_pos h2, if_pos (by omega), show a + 1 + k - (a + 1) = k by omega, show a + 1 + k - a = k + 1 by omega]
        rfl
      · rw [if_neg h2, if_neg h1, if_neg (by omega)]

end Sys2Proof.Machine
end

