-- ==== Sys2Proof/Laws/Regs.lean ====
section
/-!
SUPPORT. Laws of registers and their fields: what a write changes and what it leaves.
-/

namespace Sys2Proof.Machine

set_option Elab.async false

/-- Two fields of one page share no bit. -/
def apart (f g : Fld) : Bool := decide (f.off ≠ g.off ∨ f.lo + f.wd ≤ g.lo ∨ g.lo + g.wd ≤ f.lo)

/-- A field lies within its register. -/
def fits (f : Fld) : Bool := decide (f.lo + f.wd ≤ 32)

theorem rkey_inj {p q o o' : Nat} (ho : o < 4096) (ho' : o' < 4096) : rkey p o = rkey q o' ↔ p = q ∧ o = o' := by
  unfold rkey
  omega

theorem wordSet_toNat (f : Fld) (w : Word) (v : Nat) (h : fits f = true) :
    (wordSet f w v).toNat =
      w.toNat / 2 ^ (f.lo + f.wd) * 2 ^ (f.lo + f.wd) + (v % 2 ^ f.wd) * 2 ^ f.lo + w.toNat % 2 ^ f.lo := by
  simp only [fits, decide_eq_true_eq] at h
  rw [wordSet, BitVec.toNat_ofNat, Nat.mod_eq_of_lt]
  have hw : w.toNat < 2 ^ 32 := w.isLt
  obtain ⟨k, hk⟩ : ∃ k, 32 = f.lo + f.wd + k := ⟨32 - (f.lo + f.wd), by omega⟩
  have hpow : (2 : Nat) ^ 32 = 2 ^ (f.lo + f.wd) * 2 ^ k := by rw [hk, Nat.pow_add]
  have hsp : (2 : Nat) ^ (f.lo + f.wd) = 2 ^ f.lo * 2 ^ f.wd := Nat.pow_add ..
  have hq : w.toNat / 2 ^ (f.lo + f.wd) < 2 ^ k := by
    rw [Nat.div_lt_iff_lt_mul (Nat.two_pow_pos _), Nat.mul_comm, ← hpow]
    exact hw
  have hv : v % 2 ^ f.wd < 2 ^ f.wd := Nat.mod_lt _ (Nat.two_pow_pos _)
  have hr : w.toNat % 2 ^ f.lo < 2 ^ f.lo := Nat.mod_lt _ (Nat.two_pow_pos _)
  have h1 : (w.toNat / 2 ^ (f.lo + f.wd) + 1) * 2 ^ (f.lo + f.wd) ≤ 2 ^ k * 2 ^ (f.lo + f.wd) :=
    Nat.mul_le_mul_right _ hq
  have h2 : (v % 2 ^ f.wd + 1) * 2 ^ f.lo ≤ 2 ^ f.wd * 2 ^ f.lo := Nat.mul_le_mul_right _ hv
  have h3 : 2 ^ f.wd * 2 ^ f.lo = 2 ^ (f.lo + f.wd) := by rw [hsp, Nat.mul_comm]
  have h4 : 2 ^ k * 2 ^ (f.lo + f.wd) = (2 : Nat) ^ 32 := by rw [hpow, Nat.mul_comm]
  rw [Nat.add_mul, Nat.one_mul] at h1 h2
  omega

theorem testBit_mul_two_pow (a k i : Nat) : (a * 2 ^ k).testBit i = (decide (k ≤ i) && a.testBit (i - k)) := by
  rw [Nat.mul_comm, Nat.testBit_two_pow_mul]

/-- Bit i of a word with a field replaced. -/
theorem wordSet_testBit (f : Fld) (w : Word) (v i : Nat) (h : fits f = true) :
    (wordSet f w v).toNat.testBit i =
      if f.lo ≤ i ∧ i < f.lo + f.wd then v.testBit (i - f.lo) else w.toNat.testBit i := by
  rw [wordSet_toNat f w v h]
  have hv : v % 2 ^ f.wd < 2 ^ f.wd := Nat.mod_lt _ (Nat.two_pow_pos _)
  have hr : w.toNat % 2 ^ f.lo < 2 ^ f.lo := Nat.mod_lt _ (Nat.two_pow_pos _)
  have e1 : v % 2 ^ f.wd * 2 ^ f.lo + w.toNat % 2 ^ f.lo < 2 ^ (f.lo + f.wd) := by
    have h2 : (v % 2 ^ f.wd + 1) * 2 ^ f.lo ≤ 2 ^ f.wd * 2 ^ f.lo := Nat.mul_le_mul_right _ hv
    have h3 : 2 ^ f.wd * 2 ^ f.lo = 2 ^ (f.lo + f.wd) := by rw [Nat.pow_add, Nat.mul_comm]
    rw [Nat.add_mul, Nat.one_mul] at h2
    omega
  rw [Nat.add_assoc, Nat.mul_comm (w.toNat / _), Nat.testBit_two_pow_mul_add _ e1, Nat.mul_comm (v % _),
    Nat.testBit_two_pow_mul_add _ hr]
  simp only [Nat.testBit_mod_two_pow, Nat.testBit_div_two_pow]
  by_cases c1 : i < f.lo + f.wd
  · by_cases c2 : i < f.lo
    · have : ¬ (f.lo ≤ i ∧ i < f.lo + f.wd) := by omega
      simp [c1, c2, Nat.not_le.2 c2]
    · have : f.lo ≤ i ∧ i < f.lo + f.wd := by omega
      have c3 : i - f.lo < f.wd := by omega
      simp [c1, c2, c3, this.1]
  · rw [if_neg c1, if_neg (by omega), Nat.sub_add_cancel (by omega)]

theorem wordGet_testBit (f : Fld) (w : Word) (i : Nat) :
    (wordGet f w).testBit i = (decide (i < f.wd) && w.toNat.testBit (f.lo + i)) := by
  rw [wordGet, Nat.testBit_mod_two_pow, Nat.testBit_div_two_pow, Nat.add_comm]

theorem wordGet_wordSet_same (f : Fld) (w : Word) (v : Nat) (h : fits f = true) :
    wordGet f (wordSet f w v) = v % 2 ^ f.wd := by
  apply Nat.eq_of_testBit_eq
  intro i
  rw [wordGet_testBit, wordSet_testBit f w v _ h, Nat.testBit_mod_two_pow]
  by_cases hi : i < f.wd
  · simp [hi]
  · simp [hi]

theorem wordGet_wordSet_other (f g : Fld) (w : Word) (v : Nat) (h : fits f = true)
    (hd : f.lo + f.wd ≤ g.lo ∨ g.lo + g.wd ≤ f.lo) : wordGet g (wordSet f w v) = wordGet g w := by
  apply Nat.eq_of_testBit_eq
  intro i
  rw [wordGet_testBit, wordGet_testBit, wordSet_testBit f w v _ h]
  by_cases hi : i < g.wd
  · rw [if_neg (by omega)]
  · simp [hi]

/-- Every bit of the register outside the field is unchanged. -/
theorem wordSet_keeps (f : Fld) (w : Word) (v i : Nat) (h : fits f = true) (hi : i < f.lo ∨ f.lo + f.wd ≤ i) :
    (wordSet f w v).toNat.testBit i = w.toNat.testBit i := by
  rw [wordSet_testBit f w v i h, if_neg (by omega)]

/-! Registers of the engine -/

theorem reg_setReg (d : Dev) (p o : Nat) (w : Word) (p' o' : Nat) :
    reg (setReg d p o w) p' o' = if rkey p' o' = rkey p o then w else reg d p' o' := tget_tset ..

@[simp] theorem reg_setReg_same (d : Dev) (p o : Nat) (w : Word) : reg (setReg d p o w) p o = w := by
  simp [reg_setReg]

theorem reg_wr (d : Dev) (p : Nat) (f : Fld) (v p' o' : Nat) :
    reg (wr d p f v) p' o' = if rkey p' o' = rkey p f.off then wordSet f (reg d p f.off) v else reg d p' o' :=
  reg_setReg ..

/-- A field reads what was written to it. -/
theorem rd_wr_same (d : Dev) (p : Nat) (f : Fld) (v : Nat) (h : fits f = true) :
    rd (wr d p f v) p f = v % 2 ^ f.wd := by
  rw [rd, reg_wr, if_pos rfl, wordGet_wordSet_same f _ v h]

/-- A write of a field leaves every other field of the page. -/
theorem rd_wr_apart (d : Dev) (p : Nat) (f g : Fld) (v : Nat) (h : fits f = true) (hd : apart f g = true) :
    rd (wr d p f v) p g = rd d p g := by
  simp only [apart, decide_eq_true_eq] at hd
  rw [rd, reg_wr]
  by_cases e : f.off = g.off
  · rw [e, if_pos rfl, wordGet_wordSet_other f g _ v h (by omega), rd]
  · rw [if_neg (by unfold rkey; omega), rd]

/-- A write of a field leaves every register of every other page. -/
theorem reg_wr_page (d : Dev) (p : Nat) (f : Fld) (v q o : Nat) (hp : q ≠ p) (hf : f.off < 4096) (ho : o < 4096) :
    reg (wr d p f v) q o = reg d q o := by
  rw [reg_wr, if_neg]
  rw [rkey_inj ho hf]
  exact fun h => hp h.1

theorem rd_wr_page (d : Dev) (p q : Nat) (f g : Fld) (v : Nat) (hp : q ≠ p) (hf : f.off < 4096) (hg : g.off < 4096) :
    rd (wr d p f v) q g = rd d q g := by
  rw [rd, reg_wr_page d p f v q g.off hp hf hg, rd]

/-- A write of a field leaves every other register. -/
theorem reg_wr_off (d : Dev) (p : Nat) (f : Fld) (v o : Nat) (h : o ≠ f.off) : reg (wr d p f v) p o = reg d p o := by
  rw [reg_wr, if_neg]
  unfold rkey
  omega

theorem rdB_wrB_same (d : Dev) (p : Nat) (f : Fld) (b : Bool) (h : fits f = true) (hw : 0 < f.wd) :
    rdB (wrB d p f b) p f = b := by
  rw [rdB, wrB, rd_wr_same _ _ _ _ h]
  have : 2 ≤ 2 ^ f.wd := by
    calc 2 = 2 ^ 1 := rfl
      _ ≤ 2 ^ f.wd := Nat.pow_le_pow_right (by decide) hw
  cases b
  · simp [b2n]
  · rw [b2n, if_pos rfl, Nat.mod_eq_of_lt (by omega)]
    rfl

/-- A signed level reads as it was written, clamped to its code. -/
theorem s16_u16 (z : Int) : s16 (u16 z) = clamp16 z := by
  have h1 : -32768 ≤ clamp16 z := by unfold clamp16; omega
  have h2 : clamp16 z ≤ 32767 := by unfold clamp16; omega
  unfold s16 u16
  generalize clamp16 z = c at h1 h2
  split <;> omega

theorem u16_lt (z : Int) : u16 z < 65536 := by
  unfold u16
  omega

theorem rdS_wrS_same (d : Dev) (p : Nat) (f : Fld) (z : Int) (h : fits f = true) (hw : f.wd = 16) :
    rdS (wrS d p f z) p f = clamp16 z := by
  have e : (2 : Nat) ^ 16 = 65536 := by decide
  rw [rdS, wrS, rd_wr_same _ _ _ _ h, hw, e, Nat.mod_eq_of_lt (u16_lt z), s16_u16]

theorem clamp16_id {z : Int} (h1 : -32768 ≤ z) (h2 : z ≤ 32767) : clamp16 z = z := by
  unfold clamp16
  omega

end Sys2Proof.Machine
end

