-- ==== Sys2Proof/Laws/Report.lean ====
section
/-!
SUPPORT. What the reporting operations change: page headers only by setting INT_RAW bits, never the fault collector, and
Tally only where a record is staged.
-/

namespace Sys2Proof.Machine

set_option Elab.async false

/-- A report: headers change in INT_RAW alone, where bits are only set; the collector and Tally are untouched. -/
structure Reports (r r' : Rep) : Prop where
  flt : r'.flt = r.flt
  tally : r'.tally = r.tally
  hdr : ∀ p, ∃ w, hdrOf r' p = { hdrOf r p with raw := (hdrOf r p).raw ||| w }

theorem Reports.refl (r : Rep) : Reports r r := ⟨rfl, rfl, fun p => ⟨0, by simp⟩⟩

theorem Reports.trans {a b c : Rep} (h : Reports a b) (k : Reports b c) : Reports a c := by
  refine ⟨k.flt.trans h.flt, k.tally.trans h.tally, fun p => ?_⟩
  obtain ⟨w, hw⟩ := h.hdr p
  obtain ⟨v, hv⟩ := k.hdr p
  exact ⟨w ||| v, by rw [hv, hw]; simp [BitVec.or_assoc]⟩

/-- A change of neither headers nor collector nor Tally. -/
theorem Reports.same {r r' : Rep} (h : r'.hdr = r.hdr) (f : r'.flt = r.flt) (t : r'.tally = r.tally) : Reports r r' :=
  ⟨f, t, fun p => ⟨0, by simp [hdrOf, h]⟩⟩

theorem sendVec_reports (d : Dev) (r : Rep) (v : Nat) : Reports r (sendVec d r v) := by
  unfold sendVec
  dsimp only
  repeat' split
  all_goals exact Reports.same rfl rfl rfl

theorem vecEvent_reports (d : Dev) (r : Rep) (p : Nat) : Reports r (vecEvent d r p) := by
  unfold vecEvent
  split
  · exact sendVec_reports ..
  · exact Reports.refl r

theorem hdrOf_setHdr (r : Rep) (p : Nat) (h : Hdr) (q : Nat) : hdrOf (setHdr r p h) q = if q = p then h else hdrOf r q :=
  tget_tset ..

theorem setRaw_reports (r : Rep) (p : Nat) (b : Word) :
    Reports r (setHdr r p { hdrOf r p with raw := (hdrOf r p).raw ||| b }) := by
  refine ⟨rfl, rfl, fun q => ?_⟩
  by_cases e : q = p
  · exact ⟨b, by rw [hdrOf_setHdr, if_pos e, e]⟩
  · exact ⟨0, by rw [hdrOf_setHdr, if_neg e]; simp⟩

theorem raiseVec_reports (d : Dev) (r : Rep) (p bits : Nat) : Reports r (raiseVec d r p bits) := by
  unfold raiseVec
  dsimp only
  split
  · exact setRaw_reports ..
  · exact (setRaw_reports ..).trans (vecEvent_reports ..)

theorem foldEmit_reports (f : Nat → List Nat → Out) : ∀ (l : List (List Nat)) (a : Rep × Nat),
    Reports a.1 (l.foldl (fun a w => (emit a.1 (f a.2 w), a.2 + 1)) a).1
  | [], _ => Reports.refl _
  | w :: t, a => (Reports.same rfl rfl rfl : Reports a.1 (emit a.1 (f a.2 w))).trans
      (foldEmit_reports f t (emit a.1 (f a.2 w), a.2 + 1))

theorem setRing_reports (r : Rep) (i : Nat) (x : Ring) : Reports r (setRing r i x) := Reports.same rfl rfl rfl
theorem setInj_reports (r : Rep) (i : Nat) (x : Inj) : Reports r (setInj r i x) := Reports.same rfl rfl rfl
theorem setQueue_reports (r : Rep) (k : Nat) (q : Queue) : Reports r (setQueue r k q) := Reports.same rfl rfl rfl
theorem emit_reports (r : Rep) (o : Out) : Reports r (emit r o) := Reports.same rfl rfl rfl

theorem ringWrite_reports (d : Dev) (r : Rep) (i : Nat) (it : Item) : Reports r (ringWrite d r i it) := by
  unfold ringWrite
  extract_lets x base wb r1 h r2 r3 y
  have h1 : Reports r r1 := foldEmit_reports (fun n w => .memWrite (base + 16 * ((x.head + n) % ringSize d i)) w) _ (r, 0)
  have h3 : Reports r r3 := (h1.trans (emit_reports ..)).trans (setRing_reports ..)
  clear_value r3
  repeat' split
  · exact h3.trans (sendVec_reports ..)
  · exact h3.trans (setRing_reports ..)
  · exact h3.trans ((setRing_reports ..).trans (sendVec_reports ..))
  · exact h3

theorem injItem_reports (d : Dev) (k : Nat) : ∀ (n i : Nat) (r : Rep) (it : Item), Reports r (injItem d k n i r it).1
  | 0, _, r, _ => Reports.refl r
  | n + 1, i, r, it => by
    unfold injItem
    split
    · dsimp only
      repeat' split
      all_goals
        first
        | exact (setInj_reports ..)
        | exact (setInj_reports ..).trans (raiseVec_reports ..)
        | exact (setInj_reports ..).trans (injItem_reports d k n (i + 1) _ _)
        | exact (setInj_reports ..).trans ((raiseVec_reports ..).trans (injItem_reports d k n (i + 1) _ _))
        | exact (setInj_reports ..).trans (setInj_reports ..)
        | exact (setInj_reports ..).trans ((raiseVec_reports ..).trans (setInj_reports ..))
    · exact injItem_reports d k n (i + 1) r it

theorem releaseHeld_reports (kind index dir : Nat) : ∀ (n i : Nat) (r : Rep),
    Reports r (releaseHeld r kind index dir n i)
  | 0, _, r => Reports.refl r
  | n + 1, i, r => by
    unfold releaseHeld
    dsimp only
    refine Reports.trans ?_ (releaseHeld_reports kind index dir n (i + 1) _)
    split
    · exact setInj_reports ..
    · exact Reports.refl r

theorem deliverRing_reports (d : Dev) : ∀ (fuel : Nat) (r : Rep) (i : Nat), Reports r (deliverRing d fuel r i)
  | 0, r, _ => Reports.refl r
  | fuel + 1, r, i => by
    unfold deliverRing
    split
    · exact Reports.refl r
    · split
      · exact Reports.refl r
      · rename_i k q _
        split
        · exact Reports.refl r
        · rename_i h t _
          split
          · exact Reports.refl r
          · generalize hx : (if (h.seen || q.kept.isSome) = true then (r, InjRes.pass h.item)
              else injItem d k 8 0 r h.item) = x
            have hr : Reports r x.1 := by
              rw [← hx]
              split
              · exact Reports.refl r
              · exact injItem_reports ..
            obtain ⟨r1, res⟩ := x
            dsimp only at hr ⊢
            cases res with
            | drop =>
              dsimp only
              refine Reports.trans (hr.trans ?_) (deliverRing_reports d fuel _ i)
              exact Reports.same rfl rfl rfl
            | hold =>
              dsimp only
              refine Reports.trans (hr.trans ?_) (deliverRing_reports d fuel _ i)
              exact Reports.same rfl rfl rfl
            | pass it =>
              dsimp only
              have h1 : Reports r (ringWrite d r1 i it) := hr.trans (ringWrite_reports ..)
              refine Reports.trans ?_ (deliverRing_reports d fuel _ i)
              refine Reports.trans (b := if q.kept.isSome = true then
                releaseHeld (ringWrite d r1 i it) 3 (injQueue k) 0 8 0 else ringWrite d r1 i it) ?_
                (Reports.same rfl rfl rfl)
              split
              · exact h1.trans (releaseHeld_reports ..)
              · exact h1

theorem pumpRing_reports (d : Dev) (r : Rep) (i : Nat) : Reports r (pumpRing d r i) := deliverRing_reports ..
theorem pumpQ_reports (d : Dev) (r : Rep) (k : Nat) : Reports r (pumpQ d r k) := deliverRing_reports ..

theorem enqueue_reports (d : Dev) (r : Rep) (k typ words : Nat) (p : List (Nat × Nat)) :
    Reports r (enqueue d r k typ words p).1 := by
  unfold enqueue
  dsimp only
  repeat' split
  all_goals exact Reports.same rfl rfl rfl

theorem foldRaiseVec_reports (d : Dev) : ∀ (l : List (Nat × Nat)) (r : Rep),
    Reports r (l.foldl (fun r e => raiseVec d r e.1 e.2) r)
  | [], r => Reports.refl r
  | e :: t, r => (raiseVec_reports d r e.1 e.2).trans (foldRaiseVec_reports d t _)

theorem pageEvent_reports (d : Dev) (r : Rep) (page bits : Nat) : Reports r (pageEvent d r page bits) := by
  unfold pageEvent
  split
  · exact Reports.refl r
  · dsimp only
    exact (enqueue_reports ..).trans ((foldRaiseVec_reports ..).trans (pumpQ_reports ..))

theorem raiseR_reports (d : Dev) (r : Rep) (page bits : Nat) : Reports r (raiseR d r page bits) := by
  unfold raiseR
  dsimp only
  split
  · exact (raiseVec_reports ..).trans (pageEvent_reports ..)
  · exact raiseVec_reports ..

theorem foldRaiseR_reports (d : Dev) : ∀ (l : List (Nat × Nat)) (r : Rep),
    Reports r (l.foldl (fun r e => raiseR d r e.1 e.2) r)
  | [], r => Reports.refl r
  | e :: t, r => (raiseR_reports d r e.1 e.2).trans (foldRaiseR_reports d t _)

theorem putItemR_reports (d : Dev) (r : Rep) (k typ words : Nat) (p : List (Nat × Nat)) :
    Reports r (putItemR d r k typ words p) := by
  unfold putItemR
  exact (enqueue_reports ..).trans ((foldRaiseR_reports ..).trans (pumpQ_reports ..))

/-! What a report sets -/

theorem Reports.raw {r r' : Rep} (h : Reports r r') {p b : Nat} (hb : (hdrOf r p).raw.getLsbD b = true) :
    (hdrOf r' p).raw.getLsbD b = true := by
  obtain ⟨w, hw⟩ := h.hdr p
  rw [hw]
  simp [hb]

theorem raiseVec_sets (d : Dev) (r : Rep) (p b : Nat) (hb : b < 32) :
    (hdrOf (raiseVec d r p (2 ^ b)) p).raw.getLsbD b = true := by
  have h0 : (hdrOf (setHdr r p { hdrOf r p with raw := (hdrOf r p).raw ||| BitVec.ofNat 32 (2 ^ b) }) p).raw.getLsbD b
      = true := by
    rw [hdrOf_setHdr, if_pos rfl]
    show ((hdrOf r p).raw ||| BitVec.ofNat 32 (2 ^ b)).getLsbD b = true
    rw [BitVec.getLsbD_or, BitVec.getLsbD_ofNat, Nat.testBit_two_pow_self, decide_eq_true hb, Bool.and_self, Bool.or_true]
  unfold raiseVec
  dsimp only
  split
  · exact h0
  · exact (vecEvent_reports ..).raw h0

theorem raiseR_sets (d : Dev) (r : Rep) (p b : Nat) (hb : b < 32) :
    (hdrOf (raiseR d r p (2 ^ b)) p).raw.getLsbD b = true := by
  unfold raiseR
  dsimp only
  split
  · exact (pageEvent_reports ..).raw (raiseVec_sets d r p b hb)
  · exact raiseVec_sets d r p b hb

/-- An event sets its INT_RAW bit. -/
theorem rawBit_raise (d : Dev) (p b : Nat) (hb : b < 32) : rawBit (raise d p b) p b = true := raiseR_sets d d.rep p b hb

/-- A report leaves every INT_RAW bit that was set. -/
theorem rawBit_raise_mono {d : Dev} {q c : Nat} (p b : Nat) (h : rawBit d q c = true) : rawBit (raise d p b) q c = true :=
  (raiseR_reports ..).raw h

theorem rawBit_putItem {d : Dev} {q c : Nat} (k typ words : Nat) (l : List (Nat × Nat)) (h : rawBit d q c = true) :
    rawBit (putItem d k typ words l) q c = true := (putItemR_reports ..).raw h

end Sys2Proof.Machine
end

