-- ==== Sys2Proof/Laws/Frame.lean ====
section
/-!
SUPPORT. The frame of the shared operations: which pages they may write, and that they leave the mode, the supply, the
clock, the start-up and the trust store, and never clear an INT_RAW bit.
-/

namespace Sys2Proof.Machine

set_option Elab.async false

/-- Headers change in INT_RAW, where bits are only set, and in ERROR with its offset; sticky bits and hardware silence are
only set. -/
structure Heads (r r' : Rep) : Prop where
  hdr : ∀ p, ∃ w e o, hdrOf r' p = { hdrOf r p with raw := (hdrOf r p).raw ||| w, error := e, errOffs := o }
  sticky : ∀ s, r.flt.sticky.getLsbD s = true → r'.flt.sticky.getLsbD s = true
  silent : r.flt.silent = true → r'.flt.silent = true

theorem Heads.refl (r : Rep) : Heads r r := ⟨fun p => ⟨0, (hdrOf r p).error, (hdrOf r p).errOffs, by simp⟩, fun _ => id, id⟩

theorem Heads.trans {a b c : Rep} (h : Heads a b) (k : Heads b c) : Heads a c := by
  refine ⟨fun p => ?_, fun s x => k.sticky s (h.sticky s x), fun x => k.silent (h.silent x)⟩
  obtain ⟨w, e, o, hw⟩ := h.hdr p
  obtain ⟨v, e', o', hv⟩ := k.hdr p
  exact ⟨w ||| v, e', o', by rw [hv, hw]; simp [BitVec.or_assoc]⟩

theorem Heads.same_hdr {r r' : Rep} (h : r'.hdr = r.hdr) (p : Nat) :
    ∃ w e o, hdrOf r' p = { hdrOf r p with raw := (hdrOf r p).raw ||| w, error := e, errOffs := o } :=
  ⟨0, (hdrOf r p).error, (hdrOf r p).errOffs, by simp [hdrOf, h]⟩

theorem Heads.same {r r' : Rep} (h : r'.hdr = r.hdr) (f : r'.flt = r.flt) : Heads r r' :=
  ⟨Heads.same_hdr h, fun _ x => by rw [f]; exact x,
    fun x => by rw [f]; exact x⟩

theorem Reports.heads {r r' : Rep} (h : Reports r r') : Heads r r' :=
  ⟨fun p => by obtain ⟨w, hw⟩ := h.hdr p; exact ⟨w, _, _, hw⟩, fun _ x => by rw [h.flt]; exact x,
    fun x => by rw [h.flt]; exact x⟩

theorem setError_heads (d : Dev) (p o : Nat) : Heads d.rep (setError d p o).rep := by
  unfold setError
  extract_lets h r r2
  have h1 : Heads d.rep r := by
    refine ⟨fun q => ?_, fun _ x => x, fun x => x⟩
    by_cases e : q = p
    · exact ⟨0, true, o, by rw [hdrOf_setHdr, if_pos e, e]; simp [h, hdr]⟩
    · exact ⟨0, _, _, by rw [hdrOf_setHdr, if_neg e]; simp; rfl⟩
  have h2 : Heads r r2 := Heads.same rfl rfl
  split
  · exact Heads.refl _
  · dsimp only
    split
    · exact h1.trans h2
    · refine (h1.trans h2).trans (Heads.trans ?_ (raiseR_reports ..).heads)
      exact Heads.same rfl rfl

/-- What the shared operations on registers and reports leave as it is. -/
def core (d : Dev) : Part × Nat × Nat × Supply × Mode × Mode × Bool × Nat × Boot × Trust × List Nat × Bool × Bool × Bool ×
    Table Ctx :=
  (d.part, d.devLoop, d.devHi, d.supply, d.mode, d.prev, d.testFromSafe, d.modeCause, d.boot, d.trust, d.act, d.written,
    d.evaluated, d.mps128, d.ctxs)

/-- Registers change on the pages of S alone; the core stays; INT_RAW bits are only set. -/
structure Frame (S : Nat → Bool) (d e : Dev) : Prop where
  core : core e = core d
  regs : ∀ p o, S p = false → o < 4096 → reg e p o = reg d p o
  heads : Heads d.rep e.rep

namespace Frame

variable {S T : Nat → Bool} {d e : Dev}

theorem refl (d : Dev) : Frame S d d := ⟨rfl, fun _ _ _ _ => rfl, Heads.refl _⟩

theorem trans {a b c : Dev} (h : Frame S a b) (k : Frame S b c) : Frame S a c :=
  ⟨k.core.trans h.core, fun p o hp ho => (k.regs p o hp ho).trans (h.regs p o hp ho), h.heads.trans k.heads⟩

theorem mono (h : Frame S d e) (hs : ∀ p, T p = false → S p = false) : Frame T d e :=
  ⟨h.core, fun p o hp ho => h.regs p o (hs p hp) ho, h.heads⟩

/-- Neither a register nor the core nor a report changes. -/
theorem same (h : Machine.core e = Machine.core d) (r : e.regs = d.regs) (p : e.rep = d.rep) : Frame S d e := by
  refine ⟨h, fun q o _ _ => ?_, Heads.same (by rw [p]) (by rw [p])⟩
  have hp : e.part = d.part := congrArg Prod.fst h
  rw [reg, reg, r, hp]

/-- Only a report changes. -/
theorem report {r : Rep} (h : Heads d.rep r) : Frame S d { d with rep := r } := ⟨rfl, fun _ _ _ _ => rfl, h⟩

theorem reg_eq (h : Frame S d e) {p o : Nat} (hp : S p = false) (ho : o < 4096) : reg e p o = reg d p o := h.regs p o hp ho
theorem rd_eq (h : Frame S d e) {p : Nat} {f : Fld} (hp : S p = false) (ho : f.off < 4096) : rd e p f = rd d p f := by
  rw [rd, rd, h.regs p f.off hp ho]
theorem mode_eq (h : Frame S d e) : e.mode = d.mode := congrArg (fun x => x.2.2.2.2.1) h.core
theorem supply_eq (h : Frame S d e) : e.supply = d.supply := congrArg (fun x => x.2.2.2.1) h.core
theorem prev_eq (h : Frame S d e) : e.prev = d.prev := congrArg (fun x => x.2.2.2.2.2.1) h.core
theorem fromSafe_eq (h : Frame S d e) : e.testFromSafe = d.testFromSafe := congrArg (fun x => x.2.2.2.2.2.2.1) h.core
theorem cause_eq (h : Frame S d e) : e.modeCause = d.modeCause := congrArg (fun x => x.2.2.2.2.2.2.2.1) h.core
theorem boot_eq (h : Frame S d e) : e.boot = d.boot := congrArg (fun x => x.2.2.2.2.2.2.2.2.1) h.core
theorem trust_eq (h : Frame S d e) : e.trust = d.trust := congrArg (fun x => x.2.2.2.2.2.2.2.2.2.1) h.core
theorem act_eq (h : Frame S d e) : e.act = d.act := congrArg (fun x => x.2.2.2.2.2.2.2.2.2.2.1) h.core
theorem written_eq (h : Frame S d e) : e.written = d.written := congrArg (fun x => x.2.2.2.2.2.2.2.2.2.2.2.1) h.core
theorem evaluated_eq (h : Frame S d e) : e.evaluated = d.evaluated :=
  congrArg (fun x => x.2.2.2.2.2.2.2.2.2.2.2.2.1) h.core
theorem ctxs_eq (h : Frame S d e) : e.ctxs = d.ctxs := congrArg (fun x => x.2.2.2.2.2.2.2.2.2.2.2.2.2.2) h.core
theorem sameCore (h : Frame S d e) : SameCore d e := by
  have k := h.core
  simp only [Machine.core, Prod.mk.injEq] at k
  exact k
theorem onlyPages (h : Frame S d e) {l : List Nat} (hl : ∀ p, p ∉ l → S p = false) : OnlyPages d e l :=
  fun p o ho hp => h.regs p o (hl p hp) ho
theorem raw (h : Frame S d e) {p b : Nat} (hb : rawBit d p b = true) : rawBit e p b = true := by
  obtain ⟨w, _, _, hw⟩ := h.heads.hdr p
  unfold rawBit hdr at *
  rw [hw]
  simp [hb]

end Frame

variable {S : Nat → Bool}

theorem wr_frame (d : Dev) (p : Nat) (f : Fld) (v : Nat) (hp : S p = true) (hf : f.off < 4096) : Frame S d (wr d p f v) :=
  ⟨rfl, fun q o hq ho => reg_wr_page d p f v q o (fun e => by rw [e, hp] at hq; cases hq) hf ho, Heads.refl _⟩
theorem wrS_frame (d : Dev) (p : Nat) (f : Fld) (z : Int) (hp : S p = true) (hf : f.off < 4096) :
    Frame S d (wrS d p f z) := wr_frame d p f _ hp hf
theorem wrB_frame (d : Dev) (p : Nat) (f : Fld) (b : Bool) (hp : S p = true) (hf : f.off < 4096) :
    Frame S d (wrB d p f b) := wr_frame d p f _ hp hf
theorem bump_frame (d : Dev) (p : Nat) (f : Fld) (hp : S p = true) (hf : f.off < 4096) : Frame S d (bump d p f) :=
  wr_frame d p f _ hp hf
theorem incr_frame (d : Dev) (p : Nat) (f : Fld) (hp : S p = true) (hf : f.off < 4096) : Frame S d (incr d p f) :=
  wr_frame d p f _ hp hf

theorem raise_frame (d : Dev) (p b : Nat) : Frame S d (raise d p b) := .report (raiseR_reports ..).heads
theorem raiseBits_frame (d : Dev) (p b : Nat) : Frame S d (raiseBits d p b) := by
  unfold raiseBits
  split
  · exact .refl d
  · exact .report (raiseR_reports ..).heads
theorem putItem_frame (d : Dev) (k t w : Nat) (l : List (Nat × Nat)) : Frame S d (putItem d k t w l) :=
  .report (putItemR_reports ..).heads
theorem setError_frame (d : Dev) (p o : Nat) : Frame S d (setError d p o) := by
  have h := setError_heads d p o
  have e : ∃ r, setError d p o = { d with rep := r } := by
    unfold setError
    dsimp only
    split
    · exact ⟨d.rep, rfl⟩
    · exact ⟨_, rfl⟩
  obtain ⟨r, e⟩ := e
  rw [e] at h ⊢
  exact .report h
theorem emitD_frame (d : Dev) (o : Out) : Frame S d (emitD d o) := .report (Heads.same rfl rfl)

theorem forEach_frame {f : Nat → Dev → Dev} : ∀ (l : List Nat) (_ : ∀ n ∈ l, ∀ d, Frame S d (f n d)) (d : Dev),
    Frame S d (forEach l f d)
  | [], _, d => .refl d
  | n :: t, h, d => (h n (List.mem_cons_self ..) d).trans
      (forEach_frame t (fun m hm => h m (List.mem_cons_of_mem _ hm)) (f n d))

theorem foldl_frame {α : Type} {f : Dev → α → Dev} (h : ∀ d a, Frame S d (f d a)) : ∀ (l : List α) (d : Dev),
    Frame S d (l.foldl f d)
  | [], d => .refl d
  | a :: t, d => (h d a).trans (foldl_frame h t (f d a))

theorem ite_frame {d e f : Dev} {p : Prop} [Decidable p] (h : Frame S d e) (k : Frame S d f) :
    Frame S d (if p then e else f) := by
  split
  · exact h
  · exact k

theorem modSeg_frame (d : Dev) (n : Nat) (f : Seg → Seg) : Frame S d (modSeg d n f) := .same rfl rfl rfl
theorem modAir_frame (d : Dev) (n : Nat) (f : Air → Air) : Frame S d (modAir d n f) := .same rfl rfl rfl
theorem modChain_frame (d : Dev) (n : Nat) (f : Chain → Chain) : Frame S d (modChain d n f) := .same rfl rfl rfl
theorem modIso_frame (d : Dev) (n : Nat) (f : Iso → Iso) : Frame S d (modIso d n f) := .same rfl rfl rfl
theorem modExt_frame (d : Dev) (n : Nat) (f : Ext → Ext) : Frame S d (modExt d n f) := .same rfl rfl rfl
theorem modSwitch_frame (d : Dev) (n : Nat) (f : Switch → Switch) : Frame S d (modSwitch d n f) := .same rfl rfl rfl
theorem setCond_frame (d : Dev) (c i : Nat) (x : Cond) : Frame S d (setCond d c i x) := .same rfl rfl rfl
theorem modCond_frame (d : Dev) (c i : Nat) (f : Cond → Cond) : Frame S d (modCond d c i f) := .same rfl rfl rfl
theorem modLnk_frame (d : Dev) (f : Lnk → Lnk) : Frame S d (modLnk d f) := .same rfl rfl rfl
theorem setTrimRef_frame (d : Dev) (n : Nat) (r : GainRef) : Frame S d (setTrimRef d n r) := .same rfl rfl rfl
theorem npEvent_frame (d : Dev) (e : NpEv) : Frame S d (npEvent d e) := .same rfl rfl rfl
theorem condEvent_frame (d : Dev) (a b c e : Nat) : Frame S d (condEvent d a b c e) := npEvent_frame ..
theorem reqBurst_frame (d : Dev) (w : BurstFor) : Frame S d (reqBurst d w) := .same rfl rfl rfl
theorem sendMsg_frame (d : Dev) (k t : Nat) (l : List Nat) : Frame S d (sendMsg d k t l) :=
  (modExt_frame ..).trans (emitD_frame ..)

/-! Tally -/

theorem modTally_heads (r : Rep) (f : Tally → Tally) : Heads r (modTally r f) := Heads.same rfl rfl

theorem startFlush_heads (r : Rep) : Heads r (startFlush r) := by
  unfold startFlush
  dsimp only
  repeat' split
  all_goals exact Heads.same rfl rfl

theorem stageNew_heads (d : Dev) (r : Rep) (x : TRec) : Heads r (stageNew d r x) := by
  unfold stageNew
  extract_lets t b q y r1 r2
  split
  · exact (modTally_heads ..).trans (raiseR_reports ..).heads
  · have h : Heads r r2 := (modTally_heads ..).trans (putItemR_reports ..).heads
    split
    · exact h.trans (startFlush_heads _)
    · exact h

theorem stageWith_heads (d : Dev) (r : Rep) (c s k : Nat) (f : Bool) (l : List (Nat × Nat × Nat)) (q : Bool) :
    Heads r (stageWith d r c s k f l q) := by
  unfold stageWith
  repeat' split
  all_goals first
    | exact Heads.refl r
    | exact stageNew_heads ..
    | exact Heads.same rfl rfl

theorem stageR_heads (d : Dev) (r : Rep) (c s k : Nat) (f : Bool) : Heads r (stageR d r c s k f) := by
  unfold stageR
  split <;> exact stageWith_heads ..

theorem tally_frame (d : Dev) (c s k : Nat) : Frame S d (tally d c s k) := .report (stageR_heads ..)
theorem tallyPage_frame (d : Dev) (p b : Nat) : Frame S d (tallyPage d p b) := tally_frame ..
theorem raiseTally_frame (d : Dev) (p b : Nat) : Frame S d (raiseTally d p b) :=
  (raise_frame ..).trans (tallyPage_frame ..)

/-! Outputs: transmit chains, emissions, protection and segments -/

/-- TX[p], EMASK[p], NP_GLB, and the pages of segments and beyond. -/
def outPage (p : Nat) : Bool := decide ((0x60 ≤ p ∧ p < 0x68) ∨ p = 0x70 ∨ 0x400 ≤ p)

@[simp] theorem outPage_seg (n : Nat) : outPage (pgSEG n) = true := decide_eq_true (by unfold pgSEG; omega)
@[simp] theorem outPage_loop (n : Nat) : outPage (pgLOOP n) = true := decide_eq_true (by unfold pgLOOP; omega)
theorem outPage_tx {p : Nat} (h : p < 4) : outPage (pgTX p) = true := decide_eq_true (by unfold pgTX; omega)
theorem outPage_emk {p : Nat} (h : p < 4) : outPage (pgEMK p) = true := decide_eq_true (by unfold pgEMK; omega)
@[simp] theorem outPage_np : outPage pgNP = true := by decide

theorem lt_of_ports4 {p : Nat} (h : p ∈ ports4) : p < 4 := by
  simp [ports4] at h; omega

theorem setValid_frame (d : Dev) (n : Nat) (b : Bool) : Frame outPage d (setValid d n b) := by
  unfold setValid
  split
  · exact .refl d
  · exact (wrB_frame d _ _ _ (outPage_seg n) (by decide)).trans (raiseTally_frame ..)

theorem setCredit_frame (d : Dev) (n : Nat) (c : Int) : Frame outPage d (setCredit d n c) := by
  unfold setCredit
  extract_lets b e
  have h : Frame outPage d e := wrS_frame d _ _ _ (outPage_seg n) (by decide)
  split
  · exact h.trans ((raise_frame ..).trans (putItem_frame ..))
  · exact h

theorem outputDropped_frame (d : Dev) (n : Nat) : Frame outPage d (outputDropped d n) := by
  unfold outputDropped
  exact ((setValid_frame ..).trans (setCredit_frame ..)).trans ((modIso_frame ..).trans (modIso_frame ..))

theorem branchDropped_frame (b : Nat) (d : Dev) : Frame outPage d (branchDropped b d) :=
  forEach_frame _ (fun _ _ _ => outputDropped_frame ..) d

theorem npEnd_frame (d : Dev) (c i : Nat) : Frame outPage d (npEnd d c i) := by
  unfold npEnd
  dsimp only
  repeat' split
  · exact .refl d
  · exact setCond_frame ..
  all_goals exact (condEvent_frame ..).trans (setCond_frame ..)

theorem txSet_frame (d : Dev) {p : Nat} (hp : p < 4) (st : Nat) : Frame outPage d (txSet d p st) := by
  unfold txSet
  extract_lets was e f g
  split
  · exact .refl d
  · have h1 : Frame outPage d e :=
      ((wr_frame d _ _ _ (outPage_tx hp) (by decide)).trans (raise_frame ..)).trans (modChain_frame ..)
    have h2 : Frame outPage d f := h1.trans (ite_frame (wr_frame _ _ _ _ (outPage_emk hp) (by decide)) (.refl _))
    split
    · exact h2.trans (((wr_frame _ _ _ _ (outPage_emk hp) (by decide)).trans (modChain_frame ..)).trans (npEnd_frame ..))
    · exact h2

theorem txBias_frame (d : Dev) {p : Nat} (hp : p < 4) : Frame outPage d (txBias d p) := by
  unfold txBias
  split
  · exact .refl d
  · exact ((modChain_frame ..).trans (txSet_frame _ hp _)).trans (reqBurst_frame ..)

theorem txGo_frame (d : Dev) {p : Nat} (hp : p < 4) : Frame outPage d (txGo d p) := by
  unfold txGo
  extract_lets e t st c
  have h : Frame outPage d e := ite_frame (modChain_frame ..) (.refl d)
  refine h.trans ?_
  clear_value e
  repeat' with_reducible refine ite_frame ?_ ?_
  all_goals first
    | with_reducible exact txBias_frame e hp
    | with_reducible exact .refl e
    | with_reducible exact txSet_frame e hp _
    | (with_reducible refine Frame.trans ?_ (txSet_frame _ hp _)); exact modChain_frame ..

theorem txGoAll_frame (d : Dev) : Frame outPage d (txGoAll d) :=
  forEach_frame _ (fun _ h _ => txGo_frame _ (lt_of_ports4 h)) d

theorem txStopped_frame (d : Dev) {p : Nat} (hp : p < 4) : Frame outPage d (txStopped d p) := by
  unfold txStopped
  extract_lets e t
  have h : Frame outPage d e := modChain_frame ..
  exact h.trans (ite_frame (.refl _) (ite_frame (txBias_frame _ hp) (txSet_frame _ hp _)))

theorem quietEvidence_frame (n : Nat) (d : Dev) : Frame outPage d (quietEvidence n d) :=
  ite_frame (((modSeg_frame ..).trans (npEnd_frame ..)).trans (npEnd_frame ..)) (.refl d)

theorem npApply_frame (o d : Dev) : Frame outPage d (npApply o d) := by
  unfold npApply
  extract_lets a b c e f g
  have h1 : Frame outPage d a := forEach_frame _ (fun _ _ _ => setTrimRef_frame ..) d
  have h2 : Frame outPage a b :=
    ite_frame (.refl a) ((raise_frame ..).trans (forEach_frame _ (fun _ _ _ => emitD_frame ..) _))
  have h3 : Frame outPage b c := ite_frame (.refl b) (raise_frame ..)
  have h4 : Frame outPage c e := forEach_frame _ (fun _ _ _ => ite_frame (branchDropped_frame ..) (.refl _)) c
  have h5 : Frame outPage e f := forEach_frame _ (fun _ _ d => ite_frame (.refl d)
    ((ite_frame (branchDropped_frame ..) (.refl d)).trans (sendMsg_frame ..))) e
  have h6 : Frame outPage f g := ite_frame (forEach_frame _ (fun _ _ _ => outputDropped_frame ..) f) (.refl f)
  exact ((((((h1.trans h2).trans h3).trans h4).trans h5).trans h6).trans (txGoAll_frame g)).trans
    (forEach_frame _ (fun _ _ _ => quietEvidence_frame ..) _)

theorem setLevel_frame (d : Dev) (c i l s : Nat) : Frame outPage d (setLevel d c i l s) := by
  unfold setLevel
  extract_lets x e f
  split
  · exact .refl d
  · have h : Frame outPage d f := (setCond_frame ..).trans (condEvent_frame ..)
    exact h.trans (ite_frame (raise_frame ..) (.refl _))

theorem npRaiseNow_frame (d : Dev) (c i : Nat) : Frame outPage d (npRaiseNow d c i) := by
  unfold npRaiseNow
  extract_lets x e f l l' g k
  have hf : Frame outPage d f := (((condEvent_frame ..).trans
    (bump_frame _ _ _ outPage_np (by decide))).trans (raise_frame ..)).trans (setCond_frame ..)
  have hg : Frame outPage f g := (bump_frame _ _ _ outPage_np (by decide)).trans (setLevel_frame ..)
  have hk : Frame outPage g k := modCond_frame ..
  refine ite_frame hf (ite_frame (ite_frame (((hf.trans hg).trans hk).trans ?_) (hf.trans hg))
    (hf.trans (setLevel_frame ..)))
  exact ((bump_frame _ _ _ outPage_np (by decide)).trans (condEvent_frame ..)).trans (raise_frame ..)

theorem npRaise_frame (d : Dev) (c i : Nat) : Frame outPage d (npRaise d c i) := by
  unfold npRaise
  dsimp only
  repeat' split
  · exact .refl d
  · exact setCond_frame ..
  · exact (npRaiseNow_frame ..).trans (npApply_frame ..)

theorem npWake_frame (d : Dev) : Frame outPage d (npWake d) := by
  unfold npWake
  split
  · exact foldl_frame (fun _ _ => ite_frame ((npRaiseNow_frame ..).trans (npApply_frame ..)) (.refl _)) _ d
  · exact .refl d

theorem npClimb_frame (d : Dev) (c i : Nat) : Frame outPage d (npClimb d c i) := by
  unfold npClimb
  dsimp only
  split
  · exact .refl d
  · exact (setLevel_frame ..).trans (npApply_frame ..)

theorem npRestart_frame (d : Dev) (c i : Nat) : Frame outPage d (npRestart d c i) :=
  (((setCond_frame d _ _ _).trans (bump_frame _ _ _ outPage_np (by decide))).trans (condEvent_frame ..)).trans
    (raise_frame ..)

end Sys2Proof.Machine
end

