-- ==== Sys2Proof/Laws/Memory.lean ====
section
/-!
SUPPORT. Every operation over capture memory keeps its canonical form.
-/

namespace Sys2Proof.Machine

set_option Elab.async false

/-- The second memory is in canonical form if the first is. -/
structure Keeps (m m' : Mem) : Prop where
  wf : Memory.wf m = true → Memory.wf m' = true

theorem Keeps.refl (m : Mem) : Keeps m m := ⟨id⟩
theorem Keeps.trans {a b c : Mem} (h : Keeps a b) (k : Keeps b c) : Keeps a c := ⟨fun x => k.wf (h.wf x)⟩
theorem Keeps.ite {m a b : Mem} {p : Prop} [Decidable p] (h : Keeps m a) (k : Keeps m b) : Keeps m (if p then a else b) := by
  split
  · exact h
  · exact k

theorem dite_keeps {m : Mem} {a b : Dev × Mem} {p : Prop} [Decidable p] (h : Keeps m a.2) (k : Keeps m b.2) :
    Keeps m (if p then a else b).2 := by
  split
  · exact h
  · exact k

theorem memStore_keeps (m : Mem) (a : Nat) (l : List Byte) : Keeps m (memStore m a l) := ⟨memStore_wf l m a⟩

theorem storeRing_keeps (d : Dev) (m : Mem) (ch : Nat) (b : List Byte) : Keeps m (storeRing d m ch b).2 := by
  unfold storeRing
  dsimp only
  split
  · exact .refl m
  · exact Keeps.ite (memStore_keeps ..) ((memStore_keeps ..).trans (memStore_keeps ..))

theorem capStop_keeps (d : Dev) (m : Mem) (ch : Nat) (l : List Sample) : Keeps m (capStop d m ch l).2 := by
  unfold capStop
  repeat' split
  · exact .refl m
  · exact storeRing_keeps ..
  · exact .refl m

theorem capFull_keeps (d : Dev) (m : Mem) (ch : Nat) (l : List Sample) : Keeps m (capFull d m ch l).2 := by
  unfold capFull
  split
  · exact .refl m
  · exact memStore_keeps ..

theorem dmaComplete_keeps (d : Dev) (m : Mem) (c : Nat) (x : Desc) (b : List Byte) : Keeps m (dmaComplete d m c x b).2 := by
  unfold dmaComplete
  split
  · exact .refl m
  · split
    · split
      · exact .refl m
      · split <;> exact .refl m
    · split
      · exact .refl m
      · split
        · exact Keeps.ite (memStore_keeps ..) (.refl m)
        · exact .refl m

theorem streamBlock_keeps (d : Dev) (m : Mem) (ch o : Nat) (l : List Sample) (x : Option Desc) :
    Keeps m (streamBlock d m ch o l x).2 := by
  unfold streamBlock
  extract_lets k blocks c e b m1 d1 d2
  have h : Keeps m m1 := memStore_keeps ..
  clear_value m1 d2
  split
  · exact .refl m
  · split
    · exact .refl m
    · split
      · exact h.trans (dmaComplete_keeps ..)
      · exact h

theorem exportDone_keeps (d : Dev) (m : Mem) : Keeps m (exportDone d m).2 := by
  unfold exportDone
  split
  · exact .refl m
  · exact Keeps.ite (memStore_keeps ..) (.refl m)

theorem attest_keeps (d : Dev) (m : Mem) : Keeps m (attest d m).2 := by
  unfold attest
  extract_lets a t d1 i m1 d2 d3
  have h : Keeps m m1 := Keeps.ite (memStore_keeps ..) (.refl m)
  clear_value m1
  repeat' split
  all_goals first
    | with_reducible exact .refl m
    | with_reducible exact h

theorem windowMem_keeps (d : Dev) (m : Mem) (o : Nat) (x : WindowAccess) : Keeps m (windowMem d m o x).2 := by
  unfold windowMem
  cases x with
  | read n => exact .refl m
  | write l => exact Keeps.ite (memStore_keeps ..) (.refl m)

theorem actEffect_keeps (d : Dev) (m : Mem) (c i : Nat) (x : ActInput) : Keeps m (actEffect d m c i x).2 := by
  unfold actEffect
  extract_lets arg t
  have h : ∀ l, Keeps m (if arg < 32 then capStop d m arg l else (d, m)).2 := fun l => by
    split
    · exact capStop_keeps ..
    · exact .refl m
  repeat' first | with_reducible exact h _ | with_reducible refine dite_keeps ?_ ?_
  all_goals with_reducible exact .refl m

theorem foldl_keeps {α : Type} {f : Dev × Mem → α → Dev × Mem} (h : ∀ s a, Keeps s.2 (f s a).2) :
    ∀ (l : List α) (s : Dev × Mem), Keeps s.2 (l.foldl f s).2
  | [], s => .refl s.2
  | a :: t, s => (h s a).trans (foldl_keeps h t (f s a))

theorem deferred_keeps (l : List (Nat × Nat × ActInput)) (s : Dev × Mem) :
    Keeps s.2 (l.foldl (fun s e => actEffect s.1 s.2 e.1 e.2.1 e.2.2) s).2 :=
  foldl_keeps (fun s e => by simpa only using actEffect_keeps s.1 s.2 e.1 e.2.1 e.2.2) l s

theorem runDeferred_keeps (s : Dev × Mem) (tick : Nat) : Keeps s.2 (runDeferred s tick).2 := by
  unfold runDeferred
  dsimp only
  split
  · exact .refl _
  · have h : ∀ x : Dev, Keeps s.2 ((s.1.sched.deferred.take (min s.1.sched.deferred.length (8 * (tick - s.1.sched.tick)))).foldl
        (fun s e => actEffect s.1 s.2 e.1 e.2.1 e.2.2) (x, s.2)).2 := fun x => deferred_keeps _ (x, s.2)
    exact h _

theorem drainDeferred_keeps (d : Dev) (m : Mem) : Keeps m (drainDeferred d m).2 :=
  deferred_keeps _ (_, m)

theorem actRun_keeps (c : Nat) (x : ActInput) (s : Dev × Mem) (i : Nat) : Keeps s.2 (actRun c x s i).2 := by
  unfold actRun
  refine (runDeferred_keeps s x.tick).trans ?_
  dsimp only
  split
  · exact actEffect_keeps ..
  · exact .refl _

theorem actCmd_keeps (t : Nat) (d : Dev) (m : Mem) (c i : Nat) (x : ActInput) : Keeps m (actCmd t d m c i x).2 := by
  unfold actCmd
  dsimp only
  split
  · exact actRun_keeps c x (d, m) i
  · exact .refl m

theorem airBoundary_keeps (d : Dev) (m : Mem) (c : Nat) (x : ClkMeas) (a : ActInput) : Keeps m (airBoundary d m c x a).2 := by
  unfold airBoundary
  have h := runDeferred_keeps (d, m) a.tick
  generalize runDeferred (d, m) a.tick = y at h
  obtain ⟨d1, m1⟩ := y
  dsimp -zeta only
  extract_lets e f g
  exact h.trans (foldl_keeps (actRun_keeps c a) _ (g, m1))

theorem actStep_keeps (c : Nat) (x : ActInput) (s : Dev × Mem) (i : Nat) : Keeps s.2 (actStep c x s i).2 := by
  unfold actStep
  split
  · exact actRun_keeps ..
  · exact .refl _

theorem timingStep_keeps (d : Dev) (m : Mem) (c : Nat) (x : StepInput) : Keeps m (timingStep d m c x).2 := by
  unfold timingStep
  extract_lets p e f
  split
  · have h := foldl_keeps (actStep_keeps c x.act) (x.before.map Fin.val) (f, m)
    generalize (x.before.map Fin.val).foldl (actStep c x.act) (f, m) = y at h
    obtain ⟨d1, m1⟩ := y
    dsimp -zeta only
    extract_lets g k
    exact h.trans (foldl_keeps (actStep_keeps c x.act) _ (k, m1))
  · exact .refl m

theorem airLock_keeps (d : Dev) (m : Mem) (c cell : Nat) (snr : Int) (x : StepInput) : Keeps m (airLock d m c cell snr x).2 := by
  unfold airLock
  split
  · exact .refl m
  · dsimp only
    split
    · exact .refl m
    · exact timingStep_keeps ..

theorem airRelock_keeps (d : Dev) (m : Mem) (c cell : Nat) (snr : Int) (x : StepInput) :
    Keeps m (airRelock d m c cell snr x).2 := by
  unfold airRelock
  dsimp only
  split
  · exact .refl m
  · split
    · exact .refl m
    · exact timingStep_keeps ..

theorem airJump_keeps (d : Dev) (m : Mem) (c : Nat) (x : StepInput) : Keeps m (airJump d m c x).2 := by
  unfold airJump
  repeat' split
  · exact .refl m
  · exact .refl m
  · exact timingStep_keeps ..

theorem writeTrust_keeps (d : Dev) (m : Mem) (off v : Nat) (r : RegRow) : Keeps m (writeTrust d m off v r).2 := by
  unfold writeTrust
  repeat' split
  all_goals first
    | exact .refl m
    | exact attest_keeps ..

theorem writeCap_keeps (d : Dev) (m : Mem) (off v : Nat) (r : RegRow) : Keeps m (writeCap d m off v r).2 := by
  unfold writeCap
  extract_lets c e x
  split
  · show Keeps m x.2
    unfold x
    split
    · exact capStop_keeps ..
    · exact .refl m
  · exact .refl m

theorem writeReg_keeps (d : Dev) (m : Mem) (page p off v : Nat) (r : RegRow) : Keeps m (writeReg d m page p off v r).2 := by
  unfold writeReg
  split
  all_goals first
    | exact .refl m
    | exact writeCap_keeps ..
    | exact writeTrust_keeps ..

theorem busWrite_keeps (d : Dev) (m : Mem) (page off v : Nat) : Keeps m (busWrite d m page off v).2 := by
  unfold busWrite
  split
  · exact .refl m
  · split
    · exact .refl m
    · extract_lets p
      split
      · exact .refl m
      · dsimp only
        repeat' split
        all_goals first
          | exact .refl m
          | exact writeReg_keeps ..

end Sys2Proof.Machine
end

