-- ==== Sys2Proof/Laws/State.lean ====
section
/-!
SUPPORT. The fields of the state after each of the updates that every command shares.
-/

namespace Sys2Proof.Machine

set_option Elab.async false

@[simp] theorem rest_pending (s : State) (q : List Instr) : (s.rest q).pending = q := rfl
@[simp] theorem rest_ambient (s : State) (q : List Instr) : (s.rest q).ambient = s.ambient := rfl
@[simp] theorem rest_cap (s : State) (q : List Instr) : (s.rest q).cap = s.cap := rfl
@[simp] theorem rest_dev (s : State) (q : List Instr) : (s.rest q).dev = s.dev := rfl

@[simp] theorem settle_regs (d : Dev) : (settle d).regs = d.regs := rfl
@[simp] theorem settle_shadow (d : Dev) : (settle d).shadow = d.shadow := rfl
@[simp] theorem settle_rep (d : Dev) : (settle d).rep = d.rep := rfl
@[simp] theorem settle_supply (d : Dev) : (settle d).supply = d.supply := rfl
@[simp] theorem settle_mode (d : Dev) : (settle d).mode = d.mode := rfl
@[simp] theorem settle_prev (d : Dev) : (settle d).prev = d.prev := rfl
@[simp] theorem settle_modeCause (d : Dev) : (settle d).modeCause = d.modeCause := rfl
@[simp] theorem settle_boot (d : Dev) : (settle d).boot = d.boot := rfl
@[simp] theorem settle_trust (d : Dev) : (settle d).trust = d.trust := rfl
@[simp] theorem settle_devLoop (d : Dev) : (settle d).devLoop = d.devLoop := rfl
@[simp] theorem settle_part (d : Dev) : (settle d).part = d.part := rfl
@[simp] theorem settle_alm (d : Dev) : (settle d).alm = almOf d := rfl
@[simp] theorem settle_np (d : Dev) : (settle d).np = d.np := rfl
@[simp] theorem settle_mon (d : Dev) : (settle d).mon = d.mon := rfl
@[simp] theorem settle_lnk (d : Dev) : (settle d).lnk = d.lnk := rfl
@[simp] theorem settle_conv (d : Dev) : (settle d).conv = d.conv := rfl
@[simp] theorem settle_sig (d : Dev) : (settle d).sig = d.sig := rfl
@[simp] theorem settle_feeds (d : Dev) : (settle d).feeds = d.feeds := rfl
@[simp] theorem settle_trace (d : Dev) : (settle d).trace = d.trace := rfl
@[simp] theorem settle_reg (d : Dev) (p o : Nat) : reg (settle d) p o = reg d p o := rfl
@[simp] theorem settle_rd (d : Dev) (p : Nat) (f : Fld) : rd (settle d) p f = rd d p f := rfl
@[simp] theorem settle_rdS (d : Dev) (p : Nat) (f : Fld) : rdS (settle d) p f = rdS d p f := rfl
@[simp] theorem settle_rdB (d : Dev) (p : Nat) (f : Fld) : rdB (settle d) p f = rdB d p f := rfl
@[simp] theorem settle_hdr (d : Dev) (p : Nat) : hdr (settle d) p = hdr d p := rfl
@[simp] theorem settle_rawBit (d : Dev) (p b : Nat) : rawBit (settle d) p b = rawBit d p b := rfl
@[simp] theorem settle_txState (d : Dev) (p : Nat) : txState (settle d) p = txState d p := rfl

/-- The outputs depend on no output. -/
@[simp] theorem almOf_settle (d : Dev) : almOf (settle d) = almOf d := rfl

@[simp] theorem wr_rep (d : Dev) (p : Nat) (f : Fld) (v : Nat) : (wr d p f v).rep = d.rep := rfl
@[simp] theorem wr_mode (d : Dev) (p : Nat) (f : Fld) (v : Nat) : (wr d p f v).mode = d.mode := rfl
@[simp] theorem wr_supply (d : Dev) (p : Nat) (f : Fld) (v : Nat) : (wr d p f v).supply = d.supply := rfl
@[simp] theorem wr_boot (d : Dev) (p : Nat) (f : Fld) (v : Nat) : (wr d p f v).boot = d.boot := rfl
@[simp] theorem wr_trust (d : Dev) (p : Nat) (f : Fld) (v : Nat) : (wr d p f v).trust = d.trust := rfl
@[simp] theorem raise_regs (d : Dev) (p b : Nat) : (raise d p b).regs = d.regs := rfl
@[simp] theorem raise_mode (d : Dev) (p b : Nat) : (raise d p b).mode = d.mode := rfl
@[simp] theorem raise_supply (d : Dev) (p b : Nat) : (raise d p b).supply = d.supply := rfl
@[simp] theorem raise_boot (d : Dev) (p b : Nat) : (raise d p b).boot = d.boot := rfl
@[simp] theorem raise_trust (d : Dev) (p b : Nat) : (raise d p b).trust = d.trust := rfl
@[simp] theorem rd_raise (d : Dev) (p b q : Nat) (f : Fld) : rd (raise d p b) q f = rd d q f := rfl
@[simp] theorem rd_putItem (d : Dev) (k t w : Nat) (l : List (Nat × Nat)) (q : Nat) (f : Fld) :
    rd (putItem d k t w l) q f = rd d q f := rfl
@[simp] theorem rd_emitD (d : Dev) (o : Out) (q : Nat) (f : Fld) : rd (emitD d o) q f = rd d q f := rfl
@[simp] theorem rd_modHdr (d : Dev) (p : Nat) (g : Hdr → Hdr) (q : Nat) (f : Fld) : rd (modHdr d p g) q f = rd d q f := rfl

end Sys2Proof.Machine
end

