-- ==== Sys2Proof/Laws/Modes.lean ====
section
/-!
SUPPORT. What mode changes leave, and the pages their parts may write.
-/

namespace Sys2Proof.Machine

set_option Elab.async false

/-- Every page. -/
def anyPage (_ : Nat) : Bool := true

theorem Frame.toAny {S : Nat → Bool} {d e : Dev} (h : Frame S d e) : Frame anyPage d e := h.mono fun _ h => by cases h

theorem setMode_frame (d : Dev) (m : Mode) (row : Nat) :
    Frame (fun p => outPage p || decide (p = pgMODE)) { d with prev := d.mode, mode := m, modeCause := row } (setMode d m row) := by
  unfold setMode
  extract_lets e
  have h : Frame (fun p => outPage p || decide (p = pgMODE)) e (raise (wr e pgMODE MODE.MODE_TIME_SECONDS 0) pgMODE 0) :=
    (wr_frame _ _ _ _ (by decide) (by decide)).trans (raise_frame ..)
  have k : Frame outPage (raise (wr e pgMODE MODE.MODE_TIME_SECONDS 0) pgMODE 0) _ := (txGoAll_frame _).trans (npWake_frame _)
  exact h.trans (k.mono fun p h => by simp only [Bool.or_eq_false_iff] at h; exact h.1)

theorem setMode_mode (d : Dev) (m : Mode) (row : Nat) : (setMode d m row).mode = m := (setMode_frame d m row).mode_eq
theorem setMode_prev (d : Dev) (m : Mode) (row : Nat) : (setMode d m row).prev = d.mode :=
  (setMode_frame d m row).prev_eq
theorem setMode_cause (d : Dev) (m : Mode) (row : Nat) : (setMode d m row).modeCause = row :=
  (setMode_frame d m row).cause_eq
theorem setMode_supply (d : Dev) (m : Mode) (row : Nat) : (setMode d m row).supply = d.supply :=
  (setMode_frame d m row).supply_eq
theorem setMode_time (d : Dev) (m : Mode) (row : Nat) : rd (setMode d m row) pgMODE MODE.MODE_TIME_SECONDS = 0 := by
  unfold setMode
  extract_lets e
  have k : Frame outPage (raise (wr e pgMODE MODE.MODE_TIME_SECONDS 0) pgMODE 0) _ := (txGoAll_frame _).trans (npWake_frame _)
  rw [k.rd_eq (by decide) (by decide), rd_raise, rd_wr_same _ _ _ _ (by decide)]
  rfl
theorem setMode_raw (d : Dev) (m : Mode) (row : Nat) : rawBit (setMode d m row) pgMODE 0 = true := by
  unfold setMode
  extract_lets e
  have k : Frame outPage (raise (wr e pgMODE MODE.MODE_TIME_SECONDS 0) pgMODE 0) _ := (txGoAll_frame _).trans (npWake_frame _)
  exact k.raw (rawBit_raise _ _ _ (by decide))

/-- A command done: its name and state are shown, INT_RAW bit 2 is set, and nothing else but reports changes. -/
theorem cmdDone_frame (d : Dev) (c : Nat) : Frame (fun p => decide (p = pgMODE)) d (cmdDone d c) :=
  ((wr_frame d _ _ _ (by decide) (by decide)).trans (wr_frame _ _ _ _ (by decide) (by decide))).trans (raise_frame ..)
theorem cmdDone_last (d : Dev) {c : Nat} (h : c < 16) : rd (cmdDone d c) pgMODE MODE.CMD_STAT_LAST_CMD = c := by
  unfold cmdDone
  rw [rd_raise, rd_wr_apart _ _ _ _ _ (by decide) (by decide), rd_wr_same _ _ _ _ (by decide)]
  exact Nat.mod_eq_of_lt h
theorem cmdDone_state (d : Dev) (c : Nat) : rd (cmdDone d c) pgMODE MODE.CMD_STAT_STATE = 2 := by
  unfold cmdDone
  rw [rd_raise, rd_wr_same _ _ _ _ (by decide)]
  rfl
theorem cmdDone_raw (d : Dev) (c : Nat) : rawBit (cmdDone d c) pgMODE 2 = true := rawBit_raise _ _ _ (by decide)

/-! Fault records -/

theorem latchFault_heads (d : Dev) (r : Rep) (s : Nat) (a b : Bool) (c : Nat) : Heads r (latchFault d r s a b c) := by
  have h : ∀ f : FirstFault, Heads r (modFlt r fun x => { x with first := f }) :=
    fun f => ⟨Heads.same_hdr rfl, fun _ x => x, fun x => x⟩
  unfold latchFault
  extract_lets f r'
  split
  · exact (h _).trans (raiseR_reports ..).heads
  · split
    · exact h _
    · exact (h _).trans (raiseR_reports ..).heads

theorem recordFault_heads (d : Dev) (r : Rep) (s : Nat) (a b : Bool) (c : Nat) (f : Bool) :
    Heads r (recordFault d r s a b c f) := by
  unfold recordFault
  extract_lets c1 l c2 r1 r2 r3 r4
  have h1 : Heads r r1 := ⟨Heads.same_hdr rfl, fun i x => by simp [r1, modFlt, x], fun x => x⟩
  have h : Heads r r3 := (h1.trans (latchFault_heads ..)).trans (raiseR_reports ..).heads
  have h4 : Heads r3 r4 := by
    unfold r4
    split
    · exact Heads.same rfl rfl
    · exact stageR_heads ..
  clear_value r3 r4
  split
  · exact h
  · exact (h.trans h4).trans (putItemR_reports ..).heads

/-- A registered event is sticky. -/
theorem recordFault_sticky (d : Dev) (r : Rep) (s : Nat) (hs : s < 256) (a b : Bool) (c : Nat) (f : Bool) :
    (recordFault d r s a b c f).flt.sticky.getLsbD s = true := by
  unfold recordFault
  extract_lets c1 l c2 r1 r2 r3 r4
  have h1 : r1.flt.sticky.getLsbD s = true := by simp [r1, modFlt, hs]
  have h3 : r3.flt.sticky.getLsbD s = true := ((latchFault_heads ..).trans (raiseR_reports ..).heads).sticky s h1
  have h4 : Heads r3 r4 := by
    unfold r4
    split
    · exact Heads.same rfl rfl
    · exact stageR_heads ..
  clear_value r3 r4
  split
  · exact h3
  · exact (h4.trans (putItemR_reports ..).heads).sticky s h3

theorem endCause_frame {S : Nat → Bool} (d : Dev) (s : Nat) : Frame S d (endCause d s) :=
  .report ⟨Heads.same_hdr rfl, fun _ x => x, fun x => x⟩

theorem corrected_frame {S : Nat → Bool} (d : Dev) (s : Nat) (b : Bool) : Frame S d (corrected d s b) := by
  unfold corrected
  extract_lets e
  have h : Frame S d e := ⟨rfl, fun _ _ _ _ => rfl, recordFault_heads ..⟩
  split
  · exact h
  · exact h.trans (endCause_frame ..)

/-! Extension links -/

/-- The pages of outputs and of the extension ports. -/
def extPage (p : Nat) : Bool := outPage p || decide (0x90 ≤ p ∧ p < 0x94)

theorem extPage_out {p : Nat} (h : extPage p = false) : outPage p = false := by
  simp only [extPage, Bool.or_eq_false_iff] at h
  exact h.1

theorem extPage_ext {k : Nat} (h : k < 4) : extPage (pgEXT k) = true := by
  have : 0x90 ≤ pgEXT k ∧ pgEXT k < 0x94 := by unfold pgEXT; omega
  unfold extPage
  rw [decide_eq_true this, Bool.or_true]

theorem headEvents_frame {S : Nat → Bool} (d : Dev) (k : Nat) : Frame S d (headEvents d k) :=
  forEach_frame _ (fun _ _ _ => putItem_frame ..) d

theorem leaveRun_frame (d : Dev) (k : Nat) : Frame extPage d (leaveRun d k) := by
  unfold leaveRun
  extract_lets e
  have h : Frame extPage d e := forEach_frame _ (fun _ _ _ => modSeg_frame ..) d
  exact ((h.trans (forEach_frame _ (fun _ _ _ => (outputDropped_frame ..).mono fun _ => extPage_out) e)).trans
    (corrected_frame ..)).trans (tallyPage_frame ..)

theorem pathBranches_frame {S : Nat → Bool} (d : Dev) (n : Nat) (l : List Nat) : Frame S d (pathBranches d n l) :=
  .same rfl rfl rfl

theorem enterRun_frame (d : Dev) (k : Nat) : Frame extPage d (enterRun d k) := by
  unfold enterRun
  extract_lets e
  have h : Frame extPage d e := forEach_frame _ (fun _ _ _ =>
    ((pathBranches_frame ..).trans ((setValid_frame ..).mono fun _ => extPage_out)).trans (modIso_frame ..)) d
  exact (h.trans (forEach_frame _ (fun _ _ _ => modSeg_frame ..) e)).trans (emitD_frame ..)

theorem refreshSf_frame {k : Nat} (hk : k < 4) (d : Dev) : Frame extPage d (refreshSf k d) :=
  wrB_frame _ _ _ _ (extPage_ext hk) (by decide)

theorem setExt_frame (d : Dev) {k : Nat} (hk : k < 4) (st : Nat) : Frame extPage d (setExt d k st) := by
  unfold setExt
  extract_lets was e
  split
  · exact .refl d
  · have h : Frame extPage d e := (((wr_frame d _ _ _ (extPage_ext hk) (by decide)).trans (raise_frame ..)).trans
      (refreshSf_frame hk _)).trans (headEvents_frame ..)
    exact h.trans (ite_frame (leaveRun_frame ..) (ite_frame (enterRun_frame ..) (.refl _)))

theorem train_frame (d : Dev) {k : Nat} (hk : k < 4) : Frame extPage d (train d k) := by
  unfold train
  exact ((modExt_frame ..).trans (wr_frame _ _ _ _ (extPage_ext hk) (by decide))).trans (setExt_frame _ hk _)

theorem goDown_frame (d : Dev) {k : Nat} (hk : k < 4) : Frame extPage d (goDown d k) := by
  unfold goDown
  extract_lets p e
  have h : Frame extPage d e := ((wr_frame d _ _ _ (extPage_ext hk) (by decide)).trans
    (wr_frame _ _ _ _ (extPage_ext hk) (by decide))).trans (modExt_frame ..)
  exact h.trans (ite_frame (train_frame _ hk) (setExt_frame _ hk _))

theorem tryRun_frame (d : Dev) {k : Nat} (hk : k < 4) : Frame extPage d (tryRun d k) :=
  ite_frame (setExt_frame _ hk _) (.refl d)

theorem tryAlign_frame (d : Dev) {k : Nat} (hk : k < 4) : Frame extPage d (tryAlign d k) := by
  unfold tryAlign
  exact ite_frame (((wr_frame d _ _ _ (extPage_ext hk) (by decide)).trans (setExt_frame _ hk _)).trans (tryRun_frame _ hk))
    (tryRun_frame _ hk)

theorem lbLink_frame (was : Nat) {k : Nat} (hk : k < 4) (d : Dev) : Frame extPage d (lbLink was k d) := by
  unfold lbLink
  exact ite_frame (.refl d) (goDown_frame _ hk)

/-- PROV beside those pages. -/
def provPage (p : Nat) : Bool := extPage p || decide (p = pgPROV)

theorem provPage_ext {p : Nat} (h : provPage p = false) : extPage p = false := by
  simp only [provPage, Bool.or_eq_false_iff] at h
  exact h.1

theorem lbWrite_frame (d : Dev) (v : Nat) : Frame provPage d (lbWrite d v) := by
  unfold lbWrite
  split
  · exact setError_frame ..
  · exact (wr_frame d _ _ _ (by decide) (by decide)).trans
      (forEach_frame _ (fun k hk d => (lbLink_frame _ (lt_of_ports4 hk) d).mono fun _ => provPage_ext) _)

/-! Leaving TEST -/

theorem modTrace_frame {S : Nat → Bool} (d : Dev) (f : Trace → Trace) : Frame S d (modTrace d f) := .same rfl rfl rfl
theorem modMon_frame {S : Nat → Bool} (d : Dev) (f : Mon → Mon) : Frame S d (modMon d f) := .same rfl rfl rfl
theorem debugEvent_frame {S : Nat → Bool} (d : Dev) (b n : Nat) : Frame S d (debugEvent d b n) :=
  (raise_frame ..).trans (putItem_frame ..)

theorem dithEnd_frame (d : Dev) (st b : Nat) : Frame (fun p => decide (p = pgLGLB)) d (dithEnd d st b) := by
  unfold dithEnd
  exact ((wr_frame d _ _ _ (by decide) (by decide)).trans (modTrace_frame ..)).trans (debugEvent_frame ..)

theorem dithAbort_frame (d : Dev) : Frame (fun p => decide (p = pgLGLB)) d (dithAbort d) := by
  unfold dithAbort
  exact ite_frame (dithEnd_frame ..) (.refl d)

theorem refreshProbe_frame (n : Nat) (d : Dev) : Frame outPage d (refreshProbe n d) := by
  unfold refreshProbe
  extract_lets a b c
  have ha : Frame outPage d a := wrS_frame d _ _ _ (outPage_seg n) (by decide)
  have hb : Frame outPage a b := modIso_frame ..
  have hc : Frame outPage b c := wrB_frame _ _ _ _ (outPage_seg n) (by decide)
  exact ((ha.trans hb).trans hc).trans (wrB_frame _ _ _ _ (outPage_seg n) (by decide))
theorem refreshProbes_frame (d : Dev) : Frame outPage d (refreshProbes d) :=
  forEach_frame _ (fun _ _ _ => refreshProbe_frame ..) d

theorem releaseHeld_heads (a b c n i : Nat) (r : Rep) : Heads r (releaseHeld r a b c n i) := (releaseHeld_reports ..).heads

theorem sendAck_frame (d : Dev) (a b : Nat) : Frame anyPage d (sendAck d a b) := by
  unfold sendAck queueMsg
  exact ite_frame ((incr_frame d _ _ rfl (by decide)).trans (modLnk_frame ..)) (.refl d)

theorem frameIn_frame (d : Dev) (f : RxFrame) (c : Bool) : Frame anyPage d (frameIn d f c) := by
  unfold frameIn
  extract_lets e seq g
  have h : Frame anyPage d e := bump_frame d _ _ rfl (by decide)
  split
  · exact bump_frame d _ _ rfl (by decide)
  · have hg : Frame anyPage e g := bump_frame _ _ _ rfl (by decide)
    refine h.trans ?_
    clear_value g e
    repeat' split
    · exact (wr_frame _ _ _ _ rfl (by decide)).trans (raiseTally_frame ..)
    · exact hg.trans (sendAck_frame ..)
    · exact hg
    · exact modLnk_frame ..
    · exact .refl _

theorem rep_any {d : Dev} {r : Rep} (h : Heads d.rep r) : Frame anyPage d { d with rep := r } := .report h

theorem setHeldRx_any (d : Dev) (l : Nat) (x : Option (RxFrame × Bool)) : Frame anyPage d (setHeldRx d l x) := modLnk_frame ..

theorem releaseRx_frame (d : Dev) (l : Nat) : Frame anyPage d (releaseRx d l) := by
  unfold releaseRx
  split
  · refine Frame.trans ((setHeldRx_any d l none).trans (rep_any ?_)) (frameIn_frame ..)
    exact releaseHeld_heads ..
  · exact .refl d

theorem wr_any (d : Dev) (p : Nat) (f : Fld) (v : Nat) : Frame anyPage d (wr d p f v) :=
  ⟨rfl, fun _ _ hp _ => (by cases hp), Heads.refl _⟩

theorem modInj_any (d : Dev) (i : Nat) (f : Inj → Inj) : Frame anyPage d (modInj d i f) := rep_any (Heads.same rfl rfl)
theorem setHeldTx_any (d : Dev) (i : Nat) (m : Option (Msg × Bool)) : Frame anyPage d (setHeldTx d i m) := modLnk_frame ..

theorem releaseUnit_frame (d : Dev) (i : Nat) : Frame anyPage d (releaseUnit d i) := by
  unfold releaseUnit
  have hb : ∀ (d : Dev) (k n e : Nat), Frame anyPage d { d with rep := releaseHeld d.rep k n e 8 0 } :=
    fun d k n e => rep_any (releaseHeld_heads ..)
  split
  · extract_lets back
    split
    · split
      · exact (setHeldTx_any ..).trans (hb ..)
      · exact hb ..
    · split
      · split
        · exact releaseRx_frame ..
        · exact hb ..
      · split
        · dsimp only
          split
          · refine rep_any (d := d) ?_
            refine Heads.trans ?_ (pumpQ_reports ..).heads
            refine Heads.trans ?_ (setQueue_reports ..).heads
            exact (hb d _ _ _).heads
          · exact hb ..
        · exact hb ..
  · exact .refl d

theorem injEnd_frame (st i : Nat) (d : Dev) : Frame anyPage d (injEnd st i d) :=
  ((wr_any d pgPROV (INJ.INJ_TGT_ARM i) 0).trans (modInj_any _ i _)).trans (releaseUnit_frame ..)

theorem calLeaveTest_frame (d : Dev) : Frame anyPage d (calLeaveTest d) := by
  unfold calLeaveTest
  dsimp only
  split
  · refine Frame.trans ?_ (wr_any ..)
    exact modMon_frame ..
  · exact .refl d

theorem setTurn_frame {S : Nat → Bool} (d : Dev) (p s : Nat) (x : Turn) : Frame S d (setTurn d p s x) :=
  forEach_frame _ (fun _ _ _ => modSeg_frame ..) d

theorem switchTo_frame {S : Nat → Bool} (d : Dev) (p s : Nat) (tx : Bool) : Frame S d (switchTo d p s tx) :=
  (modSwitch_frame ..).trans (setTurn_frame ..)

theorem stateFld_off (s : Nat) : (stateFld s).off < 4096 := by
  unfold stateFld
  split <;> decide

/-- A switch moves: its own port's page may change, no other. -/
theorem switchRx_frame (p s : Nat) (d : Dev) : Frame (fun q => decide (q = pgPORT p)) d (switchRx p s d) := by
  unfold switchRx
  extract_lets b e
  have h : Frame (fun q => decide (q = pgPORT p)) d e :=
    (wr_frame d _ _ _ (by simp) (stateFld_off s)).trans (modSwitch_frame ..)
  exact h.trans (ite_frame (setTurn_frame ..) (.refl _))

theorem switchDrive_frame (d : Dev) (p s f : Nat) : Frame (fun q => decide (q = pgPORT p)) d (switchDrive d p s f) := by
  unfold switchDrive
  exact ite_frame (switchRx_frame ..) (ite_frame (.refl d) (switchTo_frame ..))

theorem applyForce_frame (p s : Nat) (d : Dev) : Frame (fun q => decide (q = pgPORT p)) d (applyForce p s d) :=
  switchDrive_frame ..
theorem dropForce_frame (p s : Nat) (d : Dev) : Frame (fun q => decide (q = pgPORT p)) d (dropForce p s d) :=
  switchDrive_frame ..

theorem leaveTest_frame (d : Dev) : Frame anyPage d (leaveTest d) := by
  unfold leaveTest
  extract_lets z a b c e f
  have h0 : Frame anyPage d z := forEach_frame _ (fun _ _ _ => (dropForce_frame ..).toAny.trans (dropForce_frame ..).toAny) d
  have h1 : Frame anyPage z a := forEach_frame _ (fun i _ d => ite_frame (injEnd_frame 3 i d) (releaseUnit_frame ..)) z
  have h2 : Frame anyPage a b := (lbWrite_frame a 0).toAny
  have h3 : Frame anyPage b c := forEach_frame _ (fun _ _ _ => wr_any ..) b
  have h4 : Frame anyPage c e := foldl_frame (fun _ _ => ite_frame (wr_any ..) (.refl _)) _ c
  have h5 : Frame anyPage e f := forEach_frame _ (fun _ _ _ => wr_any ..) e
  refine h0.trans ?_
  exact ((((h1.trans h2).trans h3).trans h4).trans h5).trans ((wr_any ..).trans (calLeaveTest_frame _))

/-! Entering TEST -/

theorem offStarts_frame (n : Nat) (d : Dev) : Frame outPage d (offStarts n d) :=
  ite_frame (outputDropped_frame ..) (.refl d)

end Sys2Proof.Machine
end

