-- ==== Sys2Proof/Laws/Step.lean ====
section
/-!
SUPPORT. What each form of a meaning answers.
-/

namespace Sys2Proof.Machine

set_option Elab.async false

theorem onDev_next {s : State} (f : Dev → Dev) (hs : Powered s) :
    onDev s f = .next { s with dev := settle (f s.dev) } := by
  rw [onDev, if_pos hs]

theorem onMem_next {s : State} (f : Dev → Mem → Dev × Mem) (hs : Powered s) :
    onMem s f = .next { s with cap := (f s.dev s.cap).2, dev := settle (f s.dev s.cap).1 } := by
  rw [onMem, if_pos hs]

/-- A command on the engine completes, keeps the queue and the memory, and brings its function's result. -/
theorem does_onDev {c : Instr} {s : State} {f : Dev → Dev} {P : Dev → Prop} (hc : exec c s = onDev s f) (hs : Powered s)
    (h : P (settle (f s.dev))) : Does c s P :=
  ⟨_, hc.trans (onDev_next f hs), rfl, rfl, fun _ => rfl, h⟩

theorem doesMem_onMem {c : Instr} {s : State} {f : Dev → Mem → Dev × Mem} {P : Dev → Mem → Prop}
    (hc : exec c s = onMem s f) (hs : Powered s) (h : P (settle (f s.dev s.cap).1) (f s.dev s.cap).2) : DoesMem c s P :=
  ⟨_, hc.trans (onMem_next f hs), rfl, rfl, h⟩

/-- A command on the engine that leaves the memory though its form could write it. -/
theorem does_onMem {c : Instr} {s : State} {f : Dev → Mem → Dev × Mem} {P : Dev → Prop}
    (hc : exec c s = onMem s f) (hs : Powered s) (hm : (f s.dev s.cap).2 = s.cap) (h : P (settle (f s.dev s.cap).1)) :
    Does c s P :=
  ⟨_, hc.trans (onMem_next f hs), rfl, rfl, fun a => by rw [hm], h⟩

theorem onDev_form (s : State) (f : Dev → Dev) :
    onDev s f = .next s ∨ onDev s f = .next { s with dev := settle (f s.dev) } := by
  unfold onDev
  split <;> simp

theorem onMem_form (s : State) (f : Dev → Mem → Dev × Mem) :
    onMem s f = .next s ∨ onMem s f = .next { s with cap := (f s.dev s.cap).2, dev := settle (f s.dev s.cap).1 } := by
  unfold onMem
  split <;> simp

theorem unlessLocked_open {d : Dev} {p : Nat} (h : Unlocked d p) (o : Nat) (f : Dev → Dev) : unlessLocked d p o f = f d := by
  unfold unlessLocked locked
  rw [if_neg (by simp [h])]

theorem unlessChanged_open {d : Dev} {p : Nat} (h : Unlocked d p) (g : Fld) (v : Nat) (f : Dev → Dev) :
    unlessChanged d p g v f = f d := by
  unfold unlessChanged locked
  rw [if_neg (by simp [h])]

end Sys2Proof.Machine
end

