-- ==== Sys2Proof/WellFormed.lean ====
section
/-!
DEFINITION. Which commands are well formed: every operand is one that the spec's widths and lists allow. An operand's type
says as much as it can, and these checks the rest.
-/

namespace Sys2Proof

/-- A level, gain or temperature fits its 16-bit code. -/
def levelOk (x : Int) : Bool := decide (-32768 ≤ x ∧ x ≤ 32767)
def optLevel : Option Int → Bool
  | some x => levelOk x
  | none => true

/-- An action's inputs: a tick within a loop period's hyperframe, a sample offset in a loop period, capture channels. -/
def actOk (x : ActInput) : Bool :=
  decide (x.offs < 524288) && x.samples.all fun e => decide (e.1 < 32)
def measOk (x : ClkMeas) : Bool := levelOk x.offs && levelOk x.snr && levelOk x.rate
def stepOk (x : StepInput) : Bool := decide (-614400 ≤ x.e ∧ x.e ≤ 614400 ∧ x.left ≤ 307200) && actOk x.act

/-- The inputs of a latch: segments, levels, and one entry for each port. -/
def latchOk (x : LatchIn) : Bool :=
  (x.levels.all fun l => decide (l.seg < 1024) && levelOk l.inRaw && levelOk l.inn && levelOk l.out)
    && (x.gated.all fun n => decide (n < 1024)) && (match x.pwm with | some p => decide (p.1 ≤ 10000) | none => true)
    && decide (x.pre.length = 4) && x.pre.all levelOk && decide (x.fwd.length = 4) && x.fwd.all optLevel
    && decide (x.conv.length ≤ 12 ∧ x.bwin.length ≤ 8) && ((x.conv ++ x.bwin).all fun e => levelOk e.1 && levelOk e.2)
    && decide (x.nf.length = 16) && x.nf.all optLevel

/-- Taps of the canceller: 128 of them, each part within 16 bits, with a 5-bit scale. -/
def tapsOk (l : List (Int × Int)) (exp : Nat) : Bool :=
  decide (l.length = 128) && (l.all fun t => levelOk t.1 && levelOk t.2) && decide (exp < 32)

/-- A coupling in hundredths of a dB. -/
def coupleOk (x : Int) : Bool := decide (-163840 ≤ x ∧ x < 163840)
/-- An estimate: branch codes below 12, couplings, levels, taps, impulse responses of 512 words. -/
def estOk (x : Estimate) : Bool :=
  (x.own.all fun e => decide (e.1 < 12) && coupleOk e.2.1) && x.cross.all coupleOk && levelOk x.snr && levelOk x.depth
    && tapsOk x.taps x.exp && (match x.better with | some b => tapsOk b.2.1 b.2.2.1 && levelOk b.2.2.2 | none => true)
    && levelOk x.irRef && x.ir.all fun r => decide (r.1 < 12 ∧ r.2.length = 512)

/-- An access to the capture window within one 4 KiB block (R357). -/
def windowOk (offset : Nat) : WindowAccess → Bool
  | .read n => decide (0 < n ∧ offset % 4096 + n ≤ 4096)
  | .write l => decide (0 < l.length ∧ offset % 4096 + l.length ≤ 4096)

/-- The command is well formed. -/
def Instr.wellFormed : Instr → Bool
  | .powerOn _ _ => true
  | .powerFailDeclared _ _ wrote _ => decide (wrote ≤ 4096)
  | .modeCmdEnterTest => true
  | .modeCmdLeaveTest => true
  | .modeCmdEnterSafe => true
  | .hostRestart _ => true
  | .regWrite _ _ _ => true
  | .pageCommit _ ticks => decide (ticks ≤ 307200)
  | .pageCancel _ ticks => decide (ticks ≤ 307200)
  | .pageSoftReset _ => true
  | .pageLock _ => true
  | .pageEnableWrite _ _ => true
  | .intMaskWrite _ _ => true
  | .faultForceWrite _ _ _ _ => true
  | .loopLatch x => latchOk x
  | .loopEvaluate => true
  | .loopGainWrite => true
  | .deactivationRampDone _ => true
  | .airFrameBoundary _ x a => measOk x && actOk a
  | .actHostEvent _ _ x => actOk x
  | .actMonTrigger _ _ x => actOk x
  | .actCaptureStart _ _ x => actOk x
  | .actCaptureStop _ _ x => actOk x
  | .actMeasOpen _ _ x => actOk x
  | .actMeasClose _ _ x => actOk x
  | .actSoundBurst _ _ x => actOk x
  | .airLock _ _ snr x => levelOk snr && stepOk x
  | .frameNumberRead _ num _ => decide (num < 2715648)
  | .airHoldoverEnter _ => true
  | .airLostEnter _ => true
  | .airRelock _ _ snr x => levelOk snr && stepOk x
  | .airTimingJump _ x => stepOk x
  | .tddMuteLift _ _ => true
  | .frameNowRead _ _ => true
  | .devLoopRead => true
  | .refSourceChange offs => levelOk offs
  | .j13PresenceChange _ => true
  | .tddSwitchAction _ _ _ _ _ => true
  | .trSwitchDone _ _ => true
  | .tddGateChange _ _ _ => true
  | .segSyncReset _ => true
  | .coefSeal _ _ => true
  | .shadowCopyDone _ _ => true
  | .invalidRunEnd _ => true
  | .toneWindowEnd _ ratio _ => levelOk ratio
  | .dithStart _ _ _ => true
  | .dithStop => true
  | .traceArm _ _ _ => true
  | .traceForce => true
  | .bufDataRead => true
  | .isoEstimateDone _ x => estOk x
  | .cancUpdateApply _ => true
  | .guardWindowEnd _ _ _ _ iso => levelOk iso
  | .guardFailApply _ => true
  | .isoValidLapse _ => true
  | .soundBurstEnd _ => true
  | .nodeIdWrite _ => true
  | .irDataRead _ => true
  | .lnkEnable _ => true
  | .helloTimer => true
  | .reportTimer => true
  | .frameTxStart _ => true
  | .frameTxEnd _ => true
  | .deafEnd _ => true
  | .preambleDetect _ nf dets => levelOk nf && dets.all fun e => levelOk e.2.1
  | .frameSyncFound _ => true
  | .frameSyncTimeout _ _ => true
  | .frameHeaderDone _ _ _ _ _ _ _ _ => true
  | .framePayloadDone _ bytes _ => decide (bytes.length ≤ 48)
  | .rxHello => true
  | .rxCouplingReport => true
  | .rxGainYield => true
  | .rxAck => true
  | .yieldAckTimeout _ => true
  | .cinEstimateDone _ _ rows bound => rows.length ≤ 12 && rows.all coupleOk && levelOk bound
  | .yieldEvalTimer => true
  | .nbStale _ => true
  | .nbPin _ => true
  | .nbUnpin _ => true
  | .nbRemove _ => true
  | .donorOverloadQuiet _ => true
  | .protClimb _ _ => true
  | .protBackoffExpire _ _ => true
  | .protWatchExpire _ _ => true
  | .npOperatorOff _ _ _ => true
  | .npOperatorOn _ _ => true
  | .npReleaseLatched _ _ _ => true
  | .pathlossMeasure _ _ rx => levelOk rx
  | .pathlossHoldExpire _ _ => true
  | .quietSymbolDecision _ dens floor => levelOk dens && levelOk floor
  | .noiseRiseEval _ mean => levelOk mean
  | .txEnable _ => true
  | .txBiasDone _ => true
  | .txStop _ => true
  | .txDrainOff _ => true
  | .biasTrackUpdate _ _ => true
  | .loadMeasure _ refl => levelOk refl
  | .loadRetry _ => true
  | .loadTriesRecover _ => true
  | .loadRelease _ => true
  | .dpdCapture _ nmse _ ls => levelOk nmse && decide (ls.length = 128)
  | .dpdUpdateApply _ => true
  | .emSweepDone _ margin _ => optLevel margin
  | .extSignalChange _ _ _ _ rxPwr txPwr => levelOk rxPwr && levelOk txPwr
  | .extBlockLock _ => true
  | .extFrameLock _ _ => true
  | .extFrameLockLoss _ _ => true
  | .extFrameRx _ _ _ _ frag badRows => decide (frag.length = 128 ∧ badRows ≤ 240)
  | .rxCaps _ words _ => decide (words.length = 47)
  | .rxAlarm _ _ => true
  | .rxStatus _ _ _ => true
  | .rxEchoTime _ _ => true
  | .extRttMeasure _ _ => true
  | .ctrlFragTimeout _ _ => true
  | .extRetrain _ => true
  | .extEnable _ _ => true
  | .extRunEnable _ _ => true
  | .capsDataRead _ => true
  | .monEnable _ => true
  | .monRestart => true
  | .monConversionDone _ _ _ => true
  | .monEntryDelayEnd => true
  | .monServiceSlot => true
  | .monBurstDone => true
  | .monBurstTimeout => true
  | .monCalZero _ => true
  | .monCalFullScale _ => true
  | .monCalSaveDone => true
  | .monRingRead => true
  | .pwrCapCompare _ _ => true
  | .holdEnergyMeasure _ => true
  | .sensorRead raw => decide (raw.length = 10) && raw.all optLevel
  | .thermalShedStep _ => true
  | .zoneShutdown _ t => levelOk t
  | .zoneRestart _ => true
  | .sensorMapOut _ => true
  | .sensorRestore _ => true
  | .dcfEnableWrite _ _ _ => true
  | .dcfRelease _ => true
  | .dcfOvercurrentTrip _ => true
  | .dcfArcDetect _ => true
  | .dcfRampDone _ _ _ => true
  | .dcfRetry _ => true
  | .dcfRetryReset _ => true
  | .dcfOpenDetect _ _ => true
  | .dcfOpenClear _ _ => true
  | .convCalStart _ => true
  | .convCalAll => true
  | .convCalDone _ spur gain offs (temp, corr) =>
    levelOk spur && levelOk gain && levelOk offs && levelOk temp && decide (corr.length = 16)
  | .convCalSave => true
  | .convSaveDone _ => true
  | .convAutoSave => true
  | .convBgUpdate _ _ rms est => levelOk rms && decide (est.length = 16)
  | .convSpurFault _ spur => levelOk spur
  | .adcOverrange i => decide (i.val < 4 ∨ 8 ≤ i.val)
  | .dacClip _ => true
  | .pcieLinkUp _ _ _ _ => true
  | .pcieLinkDown => true
  | .pcieFlr => true
  | .pcieHotReset => true
  | .perstAssert => true
  | .msixUnmask _ => true
  | .masterReady => true
  | .agentReset => true
  | .ringDoorbell _ _ => true
  | .ringEnable _ _ => true
  | .ringModTimer _ => true
  | .queueFlush _ => true
  | .levelReportTimer => true
  | .dmaDoorbell _ _ => true
  | .dmaDescDone _ _ _ => true
  | .dmaCompletionTimeout _ _ => true
  | .dmaRetry _ => true
  | .dmaSkip _ => true
  | .dmaAbort _ => true
  | .captureStartCmd _ _ => true
  | .captureStopCmd _ _ => true
  | .captureBufferFull _ _ => true
  | .streamBlockDone _ _ _ _ => true
  | .captureWindowAccess offset acc => windowOk offset acc
  | .faultDetect _ sources => decide (sources ≠ [])
  | .faultCauseEnd _ => true
  | .weevilSubstitute _ => true
  | .faultStickyClear _ _ => true
  | .firstFaultClear _ _ => true
  | .talFlushCmd => true
  | .talFlushTimer => true
  | .talFlushCommit => true
  | .counterStoreTimer => true
  | .wallSet _ => true
  | .tallyClear _ => true
  | .tallyEraseDone => true
  | .tallyRead _ _ => true
  | .tallyFetchDone => true
  | .tallyExport _ => true
  | .tallyExportDone => true
  | .startStepDone _ => true
  | .startStepTimeout => true
  | .startRetry => true
  | .surveyPhaseEnd => true
  | .gainRampPhaseEnd => true
  | .bootClrAlt => true
  | .ftRun => true
  | .filterTestDone _ => true
  | .imageInstall _ _ _ _ => true
  | .imageInstallDone _ => true
  | .attest => true
  | .tokenCheck _ => true
  | .tokenHoldExpire => true
  | .enrollFirst => true
  | .injArm _ _ _ _ _ => true
  | .injDisarm _ _ _ _ _ => true
  | .injStopAll => true
  | .injHoldTimeout _ => true
  | .provForceGo _ _ => true
  | .lbExtWrite _ => true
  | .extBlockLockLoss _ => true
  | .emSweepStart _ => true
  | .ovminteRuntimeReload => true
  | .pcieLinkSpeedDrop _ _ => true

end Sys2Proof
end

