-- ==== Sys2Proof/Tests/Slice0.lean ====
section
/-!
SUPPORT. Tests of single steps on small states, the checks of the operands, and for every statement a state and operands
that meet its hypotheses, clause by clause. What a test expects is the spec's own number or worked by hand from it.
-/

namespace Sys2Proof.Tests

open Sys2Proof.Machine

set_option Elab.async false

/-- A part of band set W and grade S with a serial number, and a powered engine of it with the listed fields written. -/
def part : Part := ⟨.W, .S, 0x1234, 1, 2, 3, 4⟩
def fields (d : Dev) (l : List (Nat × Fld × Nat)) : Dev := l.foldl (fun d x => wr d x.1 x.2.1 x.2.2) d
def dev (l : List (Nat × Fld × Nat)) : Dev := fields { dev0 part with supply := .on } l
def st (d : Dev) : State := ⟨[], [], [], d⟩
/-- Active segments with fields of their pages. -/
def segs (act : List Nat) (l : List (Nat × Fld × Nat)) : Dev := { dev l with act := act }
/-- The engine and the memory after a command; the same as before where it answers no next state. -/
def after (c : Instr) (s : State) : State :=
  match exec c s with
  | .next t => t
  | _ => s
def devAfter (c : Instr) (d : Dev) : Dev := (after c (st d)).dev
def act0 : ActInput := ⟨5, 0, []⟩
def step0 (e : Int) : StepInput := ⟨e, none, false, 0, [], [], act0⟩
def taps0 : List (Int × Int) := List.replicate 128 (0, 0)
def est0 : Estimate := ⟨[(0, 1000, true)], [], 500, 400, 7, taps0, 0, none, 0, [], false⟩
def latch0 : LatchIn := ⟨[], [], none, [0, 0, 0, 0], [none, none, none, none], [], [], List.replicate 16 none⟩
def rec0 : TRec := ⟨7, 0, ⟨false, false, false, false, false, false, false⟩, 0, 0, 0, 0, 0x3001, 0, 0, 0, [], true⟩
def step1 : StepIn := ⟨true, 1200, [], ⟨true, true, true, true, true⟩, [], [], 0⟩
def frag0 : List Byte := List.replicate 128 0
def sample0 : Sample := ⟨1, 2, false, false⟩

/-! The checks of the operands: an ill-formed term for each, and the last value that passes -/

theorem test_ill_formed_system_terms_are_refused :
    [Instr.powerFailDeclared 4 0 4097 false, .pageCommit 0 307201, .pageCancel 0 307201, .faultDetect 0 [],
      .captureWindowAccess 4095 (.read 2), .captureWindowAccess 0 (.read 0), .captureWindowAccess 4096 (.write [])].all
        (fun i => ! i.wellFormed) = true := by decide +kernel

theorem test_ill_formed_air_terms_are_refused :
    [Instr.loopLatch { latch0 with pre := [0] }, .loopLatch { latch0 with gated := [1024] }, .loopLatch { latch0 with fwd := [] },
      .loopLatch { latch0 with pwm := some (10001, 1) }, .loopLatch { latch0 with levels := [⟨1024, 0, 0, 0, true, true⟩] },
      .loopLatch { latch0 with levels := [⟨0, 32768, 0, 0, true, true⟩] },
      .airFrameBoundary 0 ⟨40000, 0, 0⟩ act0, .airFrameBoundary 0 ⟨0, 0, 0⟩ ⟨0, 524288, []⟩, .actHostEvent 0 0 ⟨0, 0, [(32, [])]⟩,
      .actMonTrigger 0 0 ⟨0, 524288, []⟩, .actCaptureStart 0 0 ⟨0, 524288, []⟩, .actCaptureStop 0 0 ⟨0, 524288, []⟩,
      .actMeasOpen 0 0 ⟨0, 524288, []⟩, .actMeasClose 0 0 ⟨0, 524288, []⟩, .actSoundBurst 0 0 ⟨0, 524288, []⟩,
      .airLock 0 0 32768 (step0 0), .airRelock 0 0 0 (step0 614401), .airTimingJump 0 (step0 (-614401)),
      .frameNumberRead 0 2715648 0, .refSourceChange 32768].all (fun i => ! i.wellFormed) = true := by decide +kernel

theorem test_ill_formed_path_terms_are_refused :
    [Instr.toneWindowEnd 0 32768 false, .isoEstimateDone 0 { est0 with own := [(12, 0, true)] }, .isoEstimateDone 0 { est0 with taps := [] },
      .isoEstimateDone 0 { est0 with exp := 32 }, .isoEstimateDone 0 { est0 with ir := [(0, [])] }, .guardWindowEnd 0 0 0 0 (-32769),
      .preambleDetect 0 32768 [], .preambleDetect 0 0 [(0, 32768, 0)], .framePayloadDone 0 (List.replicate 49 0) 0,
      .cinEstimateDone 0 1 [] 32768, .cinEstimateDone 0 1 [163840] 0, .pathlossMeasure 0 0 32768, .quietSymbolDecision 0 0 32768, .noiseRiseEval 0 32768,
      .loadMeasure 0 32768, .dpdCapture 0 0 true [], .loopLatch { latch0 with conv := [(0, 32768)] }, .loopLatch { latch0 with nf := [] }, .emSweepDone 0 (some 32768) 0, .extSignalChange 0 true false false 32768 0,
      .extFrameRx 0 true 0 0 frag0 241, .extFrameRx 0 true 0 0 [] 0, .rxCaps 0 [] 0, .sensorRead [], .sensorRead (List.replicate 10 (some 32768)),
      .zoneShutdown 0 32768, .convCalDone 0 32768 0 0 (0, corr0), .convCalDone 0 0 0 0 (0, []),
      .convBgUpdate 0 false 32768 corr0, .convBgUpdate 0 false 0 [], .convSpurFault 0 32768,
      .adcOverrange 4].all (fun i => ! i.wellFormed) = true := by decide +kernel

theorem test_well_formed_terms_pass :
    [Instr.powerFailDeclared 4 0 4096 true, .pageCommit 0 307200, .faultDetect 37499 [255], .loopLatch latch0,
      .captureWindowAccess 4094 (.read 2), .airTimingJump 15 (step0 614400), .frameNumberRead 0 2715647 11, .isoEstimateDone 1023 est0,
      .guardWindowEnd 0 0 0 0 (-32768), .preambleDetect 15 32767 [(3, -32768, 0)], .framePayloadDone 0 (List.replicate 48 0) 0,
      .dpdCapture 3 0 true taps0, .rxCaps 3 (List.replicate 47 0) 0, .convBgUpdate 11 false 0 corr0, .convCalDone 11 0 0 0 (0, corr0), .sensorRead (List.replicate 10 none), .adcOverrange 8,
      .extFrameRx 3 true 0 0 frag0 240].all Instr.wellFormed = true := by decide +kernel

/-! For every statement with hypotheses, states and operands that meet them, clause by clause -/

theorem test_meets_EmptyQueueIdles : (st (dev [])).pending = [] := rfl

theorem test_meets_EveryStepKeepsTheInvariant :
    let s : State := { st (devAfter .devLoopRead (dev [])) with pending := [.devLoopRead] }
    Inv s ∧ step s = .next (after .devLoopRead (s.rest [])) := ⟨⟨by decide +kernel, by decide +kernel⟩, rfl⟩

theorem test_meets_WithoutPowerOnlyPowerOnActs :
    ¬ Powered (st (dev0 part)) ∧ (st (dev0 part)).dev.supply = .waiting ∧ inBlock 4094 (windowLen (.read 2)) = true := by decide

theorem test_meets_ModeCommandsChangeTheMode :
    [Mode.service, .recovery, .safe, .test].all (fun m =>
      let s := st { dev [] with mode := m, testFromSafe := true }
      decide (Powered s ∧ Unlocked s.dev pgMODE ∧ s.dev.rep.flt.away.contains reloading = false)) = true := by decide +kernel

theorem test_meets_PowerOnStartsTheEngine : (st (dev0 part)).dev.supply = .waiting := rfl

theorem test_meets_PowerFailStopsTheEngine :
    let s := st { dev [] with boot := { boot0 with passed := 1 } }
    Powered s ∧ s.dev.boot.passed ≠ 0 ∧ 2 ≤ (4 : Fin 5).val ∧ tallyOut s.dev.rep = false ∧ parked s.dev = false := by decide +kernel

theorem test_meets_HostRestartBeginsAnAttempt :
    let s := st (dev [])
    Powered s ∧ Unlocked s.dev pgMODE ∧ s.dev.rep.flt.away.contains reloading = false := by decide +kernel

theorem test_meets_HeaderCommandsChangeTheHeader :
    let s := st { dev [] with mode := .test }
    let t := st { modHdr s.dev 0x7FF fun h => { h with pending := true } with sched := { s.dev.sched with late := [(0x7FF, 63)] } }
    (Powered s ∧ occupied 0x7FF = true ∧ occupied 0x3FFF = false ∧ Unlocked s.dev 0x7FF ∧ (hdr s.dev 0x7FF).pending = false
      ∧ waitsKind (kindOf 0x7FF).1 = true ∧ (hdr s.dev 0x7FF).enable = true ∧ isolators 0x7FF = [] ∧ s.dev.mode = .test)
    ∧ Powered t ∧ Unlocked t.dev 0x7FF ∧ (hdr t.dev 0x7FF).pending = true ∧ takenAt t.dev 0 0x7FF = false
    ∧ (hdr (modHdr s.dev 0x7FF fun h => { h with lock := true, enable := false }) 0x7FF).lock = true := by decide +kernel

theorem test_meets_SoftResetRestoresThePage :
    [Mode.test, .safe].all (fun m =>
      let s := st { dev [] with mode := m }
      decide (Powered s ∧ (s.dev.mode = .test ∨ s.dev.mode = .safe) ∧ occupied 0x1FFF = true ∧ Unlocked s.dev 0x1FFF
        ∧ (kindOf 0x1FFF).1 ≠ .wvl ∧ Unlocked s.dev (pgDCF 3))) = true := by decide +kernel

theorem test_meets_RegisterWriteStoresItsBits :
    let s := st (dev [])
    Powered s ∧ occupied 0xB2 = true ∧ Unlocked s.dev 0xB2 ∧ plainKind (kindOf (windowPage s.dev 0xB2 64)).1 = true
      ∧ (rowAt (windowPage s.dev 0xB2 64) 64).any (fun r => decide ((1023 : Word).toNat &&& r.known = (1023 : Word).toNat)) = true
      ∧ badWrite s.dev (windowPage s.dev 0xB2 64) 64 (1023 : Word).toNat = false ∧ occupied 0x3FFF = false := by decide +kernel

theorem test_meets_FaultsAreForcedEndedAndCleared :
    let s := st { dev [(pgWVL 0, WVL.WVL_STAT_ISOLATED, 1)] with mode := .test }
    let t := st { s.dev with rep := { s.dev.rep with flt := { s.dev.rep.flt with sticky := 1, live := 1, silent := true } } }
    (Powered s ∧ rd s.dev pgFLT FLT.FLT_CFG_FORCE_REACT = 0 ∧ (srcInfo 0).isSome = true ∧ s.dev.mode = .test)
    ∧ (isolated s.dev 0 = true ∧ isolated s.dev 31 = false ∧ rd s.dev (pgWVL 31) WVL.WVL_STAT_SUBST = 0 ∧ isolated s.dev 1 = false)
    ∧ (Powered t ∧ t.dev.rep.flt.sticky.getLsbD 0 = true ∧ t.dev.rep.flt.live.getLsbD 0 = true ∧ t.dev.rep.flt.silent = true)
    ∧ s.dev.rep.flt.silent = false := by decide +kernel

theorem test_meets_TheFirstFaultIsLatched :
    let s := st { dev [] with mode := .test }
    Powered s ∧ (srcInfo 0).isSome = true ∧ (srcInfo 96).isSome = true ∧ s.dev.mode = .test
      ∧ (srcInfo 96).any (fun x => decide ((2 ^ x.2.2) &&& forceAssigned x.2.1 = 2 ^ x.2.2 ∧ forceSources x.2.1 (2 ^ x.2.2) = [96])) = true := by
  decide +kernel

theorem test_meets_LoopLatchBeginsThePeriod : Powered (st (segs [0, 1023] [])) ∧ 1023 ∈ (st (segs [0, 1023] [])).dev.act := by decide

/-- A latched input with no caps and no holds. -/
def latched0 : Latched :=
  { cfg := { auto := true, track := false, feEn := false, spSrc := 0, sp := 0, spLo := -100, spHi := 100, offs := 0, rate := 1, man := 0,
             floor := 0, up := 1, dn := 1, th1 := 1, th2 := 2, th3 := 3, hyst := 0, mTh := 0, mHyst := 0, feLimit := 0, feTime := 0, sets := [] },
    srcs := [2200], inL := 0, outL := 0, hold := 0, ain0 := none, ain1 := none, pwm := none, dl := none, dith := 0 }

theorem test_meets_ContextsAreEvaluatedByTheLaw :
    let s := st { segs [0, 1023] [] with ctxs := [(1023, { ctx0 with cur := some latched0 })] }
    (Powered s ∧ s.dev.written = false ∧ s.dev.evaluated = false ∧ 1023 ∈ s.dev.act ∧ (ctxRt s.dev 1023).cur = some latched0
      ∧ (ctxRt s.dev 0).cur = none ∧ 5 ∉ s.dev.act)
    ∧ Powered (st { s.dev with evaluated := true }) := by decide +kernel

theorem test_meets_WrittenGainsObeyTheCap :
    0 ≤ (capOf latched0.srcs).1 ∧ (capOf ({ latched0 with srcs := [-1] }).srcs).1 < 0
      ∧ (evalCtx { latched0 with srcs := [-1] } ctx0).res.run = false := by decide +kernel

theorem test_meets_GainsAreWrittenTogether :
    let s := st { segs [0, 1023] [] with ctxs := [(1023, { ctx0 with due := true })], evaluated := true }
    (Powered s ∧ (∀ n ∈ s.dev.act, n < 1024) ∧ s.dev.evaluated = true ∧ s.dev.written = false ∧ (ctxRt s.dev 1023).due = true
      ∧ (ctxRt s.dev 0).due = false) ∧ Powered (st { s.dev with written := true }) := by decide +kernel

theorem test_meets_SegmentPathEventsEndWhatTheyName :
    let s := st { segs [0, 1023] [] with segs := [(1023, { seg0 with inv := true })] }
    let t := st { segs [1023] [] with segs := [(1023, { seg0 with deact := true })] }
    (Powered s ∧ Unlocked s.dev (pgSEG 1023) ∧ Unlocked s.dev (pgLOOP 1023) ∧ (segRt s.dev 1023).inv = true
      ∧ (segRt s.dev 1023).deact = false ∧ isActive s.dev 0 = true ∧ (-32768 : Int) < rdS s.dev pgNP NP.NP_TONE_TONE_TH)
    ∧ Powered t ∧ (segRt t.dev 1023).deact = true := by decide +kernel

theorem test_meets_ReadingABufferReturnsTheEntry :
    let s (b i : Nat) := st (dev [(pgLGLB, LGLB.BUF_SEL_BUF, b), (pgLGLB, LGLB.BUF_IDX_IDX, i)])
    [(0, 0), (7, 4095), (8, 1023)].all (fun x => decide (Powered (s x.1 x.2) ∧ rd (s x.1 x.2).dev pgLGLB LGLB.BUF_SEL_BUF = x.1 ∧ x.1 ≤ 8
      ∧ rd (s x.1 x.2).dev pgLGLB LGLB.BUF_IDX_IDX = x.2 ∧ (x.1 = 8 → x.2 < 1024))) = true := by decide +kernel

theorem test_meets_DitherAndTraceStartAndStop :
    let s := st (dev [(pgLGLB, LGLB.DITH_STAT_STATE, 1), (pgLGLB, LGLB.TRACE_STAT_STATE, 1)])
    Powered s ∧ Unlocked s.dev pgLGLB ∧ 1 ≤ (10 : BitVec 4).toNat ∧ (10 : BitVec 4).toNat ≤ 10 ∧ (7 : BitVec 3) ≠ 0
      ∧ dithRunning s.dev = true ∧ traceState s.dev = 1 := by decide +kernel

theorem test_meets_ClockStatesFollowTheCarrier :
    let s (k : Nat) := st (segs [0] [(pgAIR 15, AIR.CLK_STAT_STATE, k), (pgSEG 0, SEG.PATH_CFG_CLOCK, 15), (pgSEG 0, SEG.CENTRE, 3550000000),
      (pgSEG 0, SEG.WIDTH, 20000000)])
    let t := st { (s ckLOCKED).dev with airs := [(15, { air0 with lostMode := true, lockedRun := 8 })] }
    (QuietStep (step0 0) ∧ QuietStep (step0 5))
    ∧ (Powered (s ckSEARCH) ∧ ckState (s ckSEARCH).dev 15 = ckSEARCH ∧ mayLock (s ckSEARCH).dev 15 1023 32767 = true
      ∧ (airRt (s ckSEARCH).dev 15).srcChange = false)
    ∧ (ckState (s ckLOST).dev 15 = ckLOST ∧ mayLock (s ckLOST).dev 15 0 0 = true)
    ∧ (ckState (s ckHOLDOVER).dev 15 = ckHOLDOVER ∧ rd (s ckHOLDOVER).dev (pgAIR 15) AIR.CLK_STAT_HOLD_LEFT = 0)
    ∧ (ckState t.dev 15 = ckLOCKED ∧ (airRt t.dev 15).lostMode = true ∧ 8 ≤ (airRt t.dev 15).lockedRun
      ∧ (tddSegs t.dev 15).contains 0 = true) :=
  ⟨⟨.inl (by decide), .inr ⟨rfl, rfl, rfl⟩⟩, by decide +kernel⟩

theorem test_meets_ReferencesAndFrameNumbersAreTaken :
    let s := st (dev [(pgAIR 15, AIR.CLK_STAT_STATE, ckLOCKED)])
    Powered s ∧ ckState s.dev 15 = ckLOCKED ∧ rd s.dev (pgAIR 0) AIR.REF_STAT_SOURCE ≠ 1 := by decide +kernel

theorem test_meets_FrameBoundariesCountFrames :
    NoCommit (dev []) ∧ Powered (st (dev [])) ∧ ∀ i : Fin 256, rd (dev []) (pgAIR 15) (AIR.ACT_TIME_EN i) = 0 :=
  ⟨fun _ => rfl, rfl, by decide +kernel⟩

theorem test_meets_ScheduledActionsHaveTheirEffect :
    let s (t a : Nat) := st (dev [(pgAIR 15, AIR.ACT_TIME_EN 255, 1), (pgAIR 15, AIR.ACT_TIME_TYPE 255, t), (pgAIR 15, AIR.ACT_CTL_ARG 255, a),
      (pgAIR 15, AIR.ACT_TIME_TICK 255, 1), (pgCAP, CAP.CAP_STAT_STATE 31, 1), (pgCAP, CAP.CAP_CTRL_MODE 31, 1)])
    let z := { (s 0 3).dev with sched := { (s 0 3).dev.sched with ran := 8, tick := 5 } }
    (∀ t : Fin 7, Powered (s t 3) ∧ ActionRuns (s t 3).dev 15 255 t) ∧ ¬ ActionRuns (s 0 3).dev 15 255 1
    ∧ ((runDeferred ((s 0 3).dev, []) 5).1.sched.ran < 8 ∧ 8 ≤ (runDeferred (z, []) 5).1.sched.ran)
    ∧ (capRunning (s 3 31).dev 31 = true ∧ capMode (s 3 31).dev 31 ≠ 0 ∧ capRunning (s 2 0).dev 0 = false
      ∧ capStartOk (s 2 0).dev 0 = false) := by decide +kernel

theorem test_meets_SwitchesAndGatesFollowThePattern :
    let s := st { segs [0] [(pgSEG 0, SEG.CENTRE, 3550000000), (pgSEG 0, SEG.WIDTH, 20000000), (pgSEG 0, SEG.ROUTE_OUT_MASK, 0x801),
      (pgAIR 0, AIR.CLK_STAT_SFN_KNOWN, 1), (pgAIR 0, AIR.CLK_STAT_STATE, ckLOCKED), (pgAIR 0, AIR.SRC_CFG_RAT, 3), (pgPAT 0, PAT.PAT_HDR_RUNS, 1),
      (pgPAT 0, PAT.PAT_HDR_SCS, 1)] with switches := [(7, { target := some true, mute := true, sched := true })] }
    Powered s ∧ onSlot s.dev 0 1 = [0] ∧ onSlot s.dev 11 1 = [0] ∧ clkDrives s.dev (clockOf s.dev 0) = true ∧ patEmpty s.dev 0 = false
      ∧ (switchRt s.dev (2 * 3 + 1)).target = some true ∧ (switchRt s.dev 0).target = none ∧ isActive s.dev 0 = true ∧ isTdd s.dev 0 = true
      ∧ onSlot s.dev 5 0 = [] ∧ rd s.dev (pgAIR (clockOf s.dev 0)) AIR.CLK_STAT_SFN_KNOWN = 1 := by decide +kernel

theorem test_meets_EstimatesMeasureTheIsolation :
    let s (k : Nat) := st { segs [1023] [(pgSEG 1023, SEG.ROUTE_OUT_MASK, 1)] with isos := [(1023, { iso0 with phase := k })] }
    Powered (s 0) ∧ isActive (s 0).dev 1023 = true ∧ estDone (s 0).dev 1023 = false ∧ estDone (s 100000000).dev 1023 = true
      ∧ estLost (s 100000000).dev 1023 est0 = false ∧ estLost (s 100000000).dev 1023 { est0 with lost := true } = true
      ∧ (isoRt (s 100000000).dev 1023).added = [] ∧ (s 0).dev.mode ≠ .recovery := by decide +kernel

theorem test_meets_IsolationLapsesAndFails :
    let s := st { segs [1023] [(pgSEG 1023, SEG.ISO_STAT_VALID, 1)] with isos := [(1023, { iso0 with time := some 5, guard := some (33, 900) })] }
    Powered s ∧ rd s.dev (pgSEG 1023) SEG.ISO_STAT_VALID = 1 ∧ isActive s.dev 1023 = true ∧ (isoRt s.dev 1023).time.isSome = true
      ∧ (isoRt s.dev 1023).guard = some (33, 900) ∧ guardB 1 6 1 = true ∧ updDue s.dev 0 = false
      ∧ updDue { s.dev with isos := [(0, { iso0 with upd := some ⟨0, none, none, none⟩ })] } 0 = true := by decide +kernel

theorem test_meets_CancellerUpdatesRaiseTheCreditSlowly :
    let s (u : IsoUpd) := st { segs [1023] [] with isos := [(1023, { iso0 with upd := some u })] }
    [(⟨0, some 5, none, none⟩ : IsoUpd), ⟨0, none, some (taps0, 3), none⟩, ⟨0, some 5, some (taps0, 3), some (7, 4)⟩, ⟨0, none, none, some (7, 4)⟩].all
      (fun u => decide (Powered (s u) ∧ (isoRt (s u).dev 1023).upd = some u)) = true := by decide +kernel

theorem test_meets_ProbeCommandsKeepTheirRegisters :
    let s := st (dev [(pgPRB, PRB.SOUND_STAT_ACTIVE, 0x800)])
    Powered s ∧ Unlocked s.dev pgPRB ∧ burstOn s.dev 11 = true ∧ burstOn s.dev 0 = false ∧ s.dev.act = [] := by decide +kernel

theorem test_meets_NeighbourTableCommandsKeepTheTable :
    let s := st { dev [] with lnk := { lnk0 with nbs := [(0, { nb0 with id := 5, state := nbACTIVE, heard := some 0 })] }, devLoop := 64000 }
    Powered s ∧ Unlocked s.dev pgLNK ∧ nbFind s.dev (5 : BitVec 14).toNat = some 0 ∧ nbFind s.dev (6 : BitVec 14).toNat = none
      ∧ nbSlot s.dev = some 1 ∧ (nbOf s.dev 0).pin = false ∧ nbFree s.dev (nbOf s.dev 0) = true ∧ nodeId s.dev = 0
      ∧ (nbOf s.dev 0).state = nbACTIVE := by decide +kernel

/-- An engine on the link: identity 9, a segment of centre 0 heard on slot 15 and sent on slot 7. -/
def linked (k : Lnk) : Dev :=
  { segs [0] [(pgPRB, PRB.NODE_NODE_ID, 9), (pgLNK, LNK.LNK_CTRL_EN, 1), (pgLNK, LNK.LNK_STAT_MODEM, 1), (pgLSN, LSN.LSN_CFG_EN 15, 1),
      (pgLSN, LSN.LSN_CFG_FRAMES 15, 1), (pgLTX, LTX.TLK_CFG_EN 7, 1), (pgSEG 0, SEG.ROUTE_OUT_MASK, 1)] with lnk := k }
def msg0 : Msg := ⟨mYIELD, 5, 3, [0, 3], [], 3, 0⟩
def nb1 : Nb :=
  let p := [(15, { nbPair0 with cIn := some 100 })]
  { nb0 with id := 5, state := nbACTIVE, spans := [⟨0, 0, 0, 0, 0, 0⟩], reps := [⟨0, 0, false, 1, 2⟩], pairs := p }

theorem test_meets_MessagesAreQueuedAndSent :
    let k := { lnk0 with nbs := [(0, nb1)], txq := [msg0], acks := [msg0] }
    let s := st { linked k with devLoop := 32000000 }
    let t := st (linked { k with talk := [(7, { talk0 with back := some (3, 60) })] })
    let u := st (linked { k with talk := [(7, { talk0 with msg := some msg0, chips := true })] })
    (Powered s ∧ canSend s.dev = true ∧ (slotTurn s.dev s.dev.lnk.turn).take 5 ≠ [] ∧ nbUsed s.dev = [0]
      ∧ (nbOf s.dev 0).state = nbACTIVE ∧ cinSlots s.dev (nbOf s.dev 0) ≠ [] ∧ tlkState s.dev 7 = 1)
    ∧ ((talkOf t.dev 7).back = some (3, 60) ∧ txNext t.dev 7 = some msg0 ∧ tlkState t.dev 7 = 2 ∧ msg0.seq = 3
      ∧ 60 ≤ (isoRt t.dev 0).phase + perSamples t.dev 0 ∧ ∀ i : Fin 8, injOn t.dev t.dev.rep i 2 7 0 = false)
    ∧ (sendingOf u.dev 7 = some msg0 ∧ (talkOf u.dev 7).chips = true ∧ sendingOf u.dev 0 = none)
    ∧ s.dev.lnk.acks.find? (fun m => decide (m.dst = (5 : BitVec 14).toNat)
        && decide (m.last + 32000 * rd s.dev pgLNK LNK.LNK_WAIT_ACK_WAIT ≤ s.dev.devLoop)) = some msg0
    ∧ u.dev.lnk.acks.find? (fun m => decide (m.dst = (6 : BitVec 14).toNat)) = none := by decide +kernel

theorem test_meets_ReceptionsFollowTheirStates :
    let s (x : Rx) := st (linked { lnk0 with rx := [(15, x)], nbs := [(0, nb1)] })
    let y : Rx := { rx0 with state := rxPAYLOAD, hdr := some (mHELLO, 4, 5, 0) }
    let h (crc : BitVec 8) : BitVec 48 := (0 : BitVec 2) ++ (1 : BitVec 4) ++ (4 : BitVec 6) ++ (5 : BitVec 14) ++ (0 : BitVec 14) ++ crc
    (Powered (s rx0) ∧ searching (s rx0).dev 15 = true ∧ deafNow (s rx0).dev 15 = false ∧ searching (s rx0).dev 0 = false)
    ∧ (detected (s rx0).dev 0 32767 = true ∧ detected (s rx0).dev 0 (-32768) = false
      ∧ coincides { rx0 with state := rxSYNC, lag := 8 } ⟨0, 32767, 9, 0⟩ = true
      ∧ coincides { rx0 with state := rxSYNC, lag := 8 } ⟨0, 32767, 10, 0⟩ = false)
    ∧ rxState (s { rx0 with state := rxSYNC }).dev 15 = rxSYNC ∧ rxState (s { rx0 with state := rxHEADER }).dev 15 = rxHEADER
    ∧ (headerOf (h 0)).ok = decide (crc8 (msbBits ((h 0).toNat / 256) 40) = 0)
    ∧ (rxState (s y).dev 15 = rxPAYLOAD ∧ (rxOf (s y).dev 15).hdr = some (mHELLO, 4, 5, 0) ∧ heldRxOf (s y).dev 15 = none
      ∧ ∀ i : Fin 8, injOn (s y).dev (s y).dev.rep i 2 15 1 = false) := by decide +kernel

/-- A payload of one entry of w bytes, and as many as a type admits. -/
def body (n w : Nat) : List Nat := [0, 1, n] ++ List.replicate (n * w) 0

theorem test_meets_MessagesReceivedReachTheTable :
    let s (typ n w : Nat) := st (linked { lnk0 with nbs := [(0, nb1)], frames := [⟨15, 0, typ, 5, body n w⟩] })
    [(mHELLO, 5, 9, 5), (mREPORT, 4, 11, 4), (mYIELD, 1, 9, 5)].all (fun x =>
      let f : RxFrame := ⟨15, 0, x.1, 5, body x.2.1 x.2.2.1⟩
      decide (Powered (s x.1 x.2.1 x.2.2.1) ∧ (s x.1 x.2.1 x.2.2.1).dev.lnk.frames = [f] ∧ nbFind (s x.1 x.2.1 x.2.2.1).dev 5 = some 0
        ∧ (entriesOf f x.2.2.1 x.2.2.2).isSome = true)) = true
    ∧ (s mACK 0 0).dev.lnk.frames = [⟨15, 0, mACK, 5, body 0 0⟩] := by decide +kernel

theorem test_meets_TheHigherIdentityYields :
    let s := st (linked { lnk0 with nbs := [(0, nb1)] })
    Powered s ∧ isPair s.dev (nbOf s.dev 0) 15 = true ∧ nbFind s.dev (5 : BitVec 14).toNat = some 0 ∧ nbUsed s.dev = [0] ∧ nodeId s.dev ≠ 0
      ∧ (pairOf (nbOf s.dev 0) 15).cIn = some 100 ∧ repFor s.dev (nbOf s.dev 0) 15 = some ⟨0, 0, false, 1, 2⟩ := by decide +kernel

theorem test_meets_ConditionsClimbRunOutAndTakeCommands :
    let c : Cond := { cond0 with present := true, level := 1, tries := 6, backoff := some 1, watch := some 1 }
    let b := { boot0 with passed := 11, phase := .done }
    let s (c : Cond) := st { dev [] with np := { np0 with conds := [(ckey 5 1023, c), (ckey 6 1023, c)] }, mode := .service, boot := b, devLoop := 1000000 }
    let t := st (modHdr (s c).dev pgNP fun h => { h with lock := true })
    (Powered (s c) ∧ (condOf (s c).dev 5 1023).present = true ∧ (condOf (s c).dev 5 1023).wait = false ∧ (condOf (s c).dev 5 1023).latched = false
      ∧ rd (s c).dev pgESC (ESC.ESC_CLIMB 5) ≠ 0 ∧ npActs (s c).dev = true
      ∧ (condOf (s c).dev 5 1023).step + 320 * rd (s c).dev pgESC (ESC.ESC_CLIMB 5) ≤ (s c).dev.devLoop + 1)
    ∧ ([0, 1].all fun n => decide ((condOf (s { c with backoff := some n, watch := some n }).dev 5 1023).backoff = some n
      ∧ (condOf (s { c with backoff := some n, watch := some n }).dev 5 1023).watch = some n)) = true
    ∧ ((condOf (s c).dev 6 1023).level ≠ 0 ∧ tget (fun _ => 0) (s c).dev.np.ovlLast 1023 + 32000 ≤ (s c).dev.devLoop + 1)
    ∧ Unlocked (s c).dev pgNP ∧ ¬ Unlocked t.dev pgNP := by decide +kernel

/-- A downlink and an uplink segment of group 1,023, whose noise-rise cap is on. -/
def grouped : Dev :=
  segs [0, 1023] [(pgGRP 1023, GRP.GRP_CFG_NR_EN, 1), (pgGRP 1023, GRP.GRP_CFG_REF_PWR, 900), (pgSEG 0, SEG.PATH_CFG_CARRIER_GRP, 1023),
    (pgSEG 0, SEG.ROUTE_IN_BRANCH, 1), (pgAIR 0, AIR.CLK_STAT_STATE, ckLOCKED), (pgAIR 0, AIR.SRC_CFG_RAT, 2), (pgSEG 1023, SEG.PATH_CFG_DIR, 1),
    (pgSEG 1023, SEG.PATH_CFG_CARRIER_GRP, 1023), (pgSEG 1023, SEG.ROUTE_OUT_MASK, 3), (pgNPS 1023, NPS.NPS_QSTAT_FLOOR, 5)]

theorem test_meets_DonorPathLossAndUplinkActivityAreFollowed :
    let s := st { grouped with np := { grouped.np with pl := [(4 * 1023, some ⟨5, 0, some 0, false⟩)] }, devLoop := 19200000 }
    (Powered s ∧ nrOn s.dev 1023 = true ∧ plSegs s.dev 1023 1 = [0] ∧ plReady s.dev 1023 1 = true ∧ plSegs s.dev 1023 0 = [])
    ∧ (plOf s.dev 1023 1 = none ∧ (plOf s.dev 1023 0).any (fun x => decide (x.held = some 0)) = true ∧ plHeld s.dev 1023 0 = true
      ∧ 0 + 19200000 ≤ s.dev.devLoop + 1)
    ∧ (isActive s.dev 1023 = true ∧ isUplink s.dev 1023 = true ∧ rd s.dev (pgAIR (clockOf s.dev 1023)) AIR.SRC_CFG_RAT ≠ 1
      ∧ isGated s.dev 1023 = false ∧ groupOf s.dev 1023 = 1023 ∧ donorOuts s.dev 1023 = [0, 1]
      ∧ rdS s.dev (pgNPS 1023) NPS.NPS_QSTAT_FLOOR ≠ -32768) := by decide +kernel

/-- An engine past its start with port 3's chain in a state, and nothing that holds it. -/
def chain (x : Nat) (c : Chain) : Dev :=
  let b := { boot0 with passed := 10, phase := .done }
  { dev [(pgTX 3, TX.TX_STAT_STATE, x), (pgTX 3, TX.TX_CTRL_EN, 1)] with mode := .service, chains := [(3, c)], boot := b }

theorem test_meets_ChainsStartAndStop :
    let s (x : Nat) := st (chain x { chain0 with idq := some 1024 })
    let o := st (fields (chain txOFF chain0) [(pgTX 3, TX.TX_CTRL_EN, 0)])
    (Powered o ∧ Unlocked o.dev (pgTX 3) ∧ rd o.dev (pgTX 3) TX.TX_CTRL_EN = 0 ∧ hwHold o.dev 3 = false ∧ monitorPassed o.dev = true
      ∧ (chainRt o.dev 3).load = 0 ∧ txState o.dev 3 = txOFF)
    ∧ (Powered (s txBIASING) ∧ (chainRt (s txBIASING).dev 3).idq = some 1024 ∧ txState (s txBIASING).dev 3 = txBIASING)
    ∧ txState (s txSTOPPING).dev 3 = txSTOPPING
    ∧ (let z := st { chain txSTOPPING chain0 with mode := .safe }
       txState z.dev 3 = txSTOPPING ∧ (chainRt z.dev 3).gate = false ∧ txTarget z.dev 3 = txOFF) := by decide +kernel

theorem test_meets_LoadSupervisionStopsAndRetries :
    let s (x l : Nat) := st { chain x { chain0 with load := l, drain := true, fwd := 400, tripRun := 2 } with devLoop := 19199999 }
    (Powered (s txON 0) ∧ txState (s txON 0).dev 3 = txON ∧ 400 ≤ (chainRt (s txON 0).dev 3).fwd ∧ hwHold (s txON 0).dev 3 = false
      ∧ (-32768 : Int) < rdS (s txON 0).dev (pgTX 3) TX.LOAD_CFG_RL_TRIP)
    ∧ (txState (s txLOADOFF 1).dev 3 = txLOADOFF ∧ txState (s txLOADLATCHED 2).dev 3 = txLOADLATCHED
      ∧ Unlocked (s txLOADLATCHED 2).dev (pgTX 3) ∧ (chainRt (s txLOADOFF 1).dev 3).since + 19200000 ≤ (s txLOADOFF 1).dev.devLoop + 1)
    ∧ (hwHold (s txLOADOFF 1).dev 3 = false ∧ (s txLOADOFF 1).dev.mode ≠ .safe ∧ rd (s txLOADOFF 1).dev (pgTX 3) TX.TX_CTRL_EN = 1
      ∧ rd (s txLOADOFF 1).dev (pgTX 3) TX.TX_STAT_BIAS_FAIL = 0 ∧ monitorPassed (s txLOADOFF 1).dev = true) := by decide +kernel

theorem test_meets_PredistortionAdaptsAndReverts :
    let c : Chain := { chain0 with next := some ([1], true), nextAt := 1, judged := true, nmse := some 5, sweeping := true }
    let s := st (fields (chain txON c) [(pgTX 3, TX.DPD_CFG_MODE, 1), (pgEMK 3, EMK.EM_CFG_EN, 1), (pgEMK 3, EMK.EM_CFG_CNT, 3)])
    let t := st (modHdr s.dev (pgTX 3) fun h => { h with pending := true })
    Powered s ∧ dpdAdapts s.dev 3 = true ∧ frozen s.dev 3 = false ∧ (chainRt s.dev 3).judged = true ∧ (chainRt s.dev 3).nmse = some 5
      ∧ (hdr s.dev (pgTX 3)).pending = false ∧ (chainRt s.dev 3).next = some ([1], true) ∧ (chainRt s.dev 3).nextAt ≤ s.dev.devLoop + 1
      ∧ (chainRt s.dev 3).sweeping = true ∧ txState s.dev 3 = txON ∧ rd s.dev (pgEMK 3) EMK.EM_STAT_UNAVAILABLE = 0
      ∧ rd s.dev (pgEMK 3) EMK.EM_STAT_VCOUNT + 1 < rd s.dev (pgEMK 3) EMK.EM_CFG_CNT
      ∧ (hdr t.dev (pgTX 3)).pending = true ∧ slotsTx t.dev 3 = true := by decide +kernel

theorem test_meets_LinksFollowTheirLocks :
    let s (x : Nat) := st { dev [(pgEXT 3, EXT.EXT_STAT_STATE, x), (pgEXT 3, EXT.EXT_STAT_BLOCK_LOCK, 1), (pgEXT 3, EXT.EXT_CTRL_EN, 1),
      (pgEXT 3, EXT.EXT_STAT_MOD_PRESENT, 1), (pgEXT 3, EXT.EXT_STAT_CAPS_OK, 1), (pgEXT 3, EXT.EXT_STAT_FRAME_LOCK, 1), (pgEXT 3, EXT.EXT_STAT_LOS, 0)]
      with exts := [(3, { ext0 with rtts := [1], headLock := true })] }
    Powered (s exTRAINING) ∧ looped (s exTRAINING).dev 3 = false ∧ Unlocked (s exTRAINING).dev (pgEXT 3)
      ∧ extSignalOk (s exTRAINING).dev 3 = true ∧ rd (s exTRAINING).dev (pgEXT 3) EXT.EXT_STAT_BLOCK_LOCK = 1
      ∧ exState (s exTRAINING).dev 3 = exTRAINING ∧ rd (s exTRAINING).dev (pgEXT 3) EXT.EXT_STAT_CAPS_OK = 1
      ∧ (extRt (s exTRAINING).dev 3).rtts ≠ [] ∧ exALIGNED ≤ exState (s exALIGNED).dev 3 ∧ exState (s exDOWN).dev 3 = exDOWN := by decide +kernel

theorem test_meets_FramesAreCountedAndFragmentsRepeated :
    let x := { ext0 with unacked := [⟨4095, [1], 8, some 0⟩, ⟨1, [2], 0, none⟩, ⟨2, [3], 7, some 0⟩], marks := 3, missed := 2, rxSeq := some 4095 }
    let s := st { dev [(pgEXT 3, EXT.EXT_STAT_BLOCK_LOCK, 1), (pgEXT 3, EXT.EXT_STAT_STATE, exALIGNED)] with exts := [(3, x)], devLoop := 3 }
    let find (q : BitVec 12) := (extRt s.dev 3).unacked.find? (fun e => decide (e.seq = q.toNat))
    Powered s ∧ rd s.dev (pgEXT 3) EXT.EXT_STAT_BLOCK_LOCK = 1 ∧ find 4095 = some ⟨4095, [1], 8, some 0⟩ ∧ find 1 = some ⟨1, [2], 0, none⟩
      ∧ find 2 = some ⟨2, [3], 7, some 0⟩ ∧ 0 + 3 ≤ s.dev.devLoop ∧ 3 ≤ (extRt s.dev 3).marks ∧ 2 ≤ (extRt s.dev 3).missed
      ∧ exALIGNED ≤ exState s.dev 3 ∧ (extRt s.dev 3).rxSeq.all (fun o => decide (0 = (o + 1) % 4096)) = true
      ∧ find 0 = none ∧ headOk 0 = false ∧ headOk (BitVec.ofNat 256 (FrameHead.word ⟨0, 0, 0, false, some 1, 0, false, []⟩)) = true := by decide +kernel

/-- The first 47 words of the least acceptable capability record. -/
def record0 : List Nat := 0x01000000 :: 0 :: 0 :: 1 :: List.replicate 43 0

theorem test_record_before_its_crc (c : Nat) : (record0 ++ [c]).take 47 = record0 := by simp [record0]

/-- The least record with the CRC-32C of its words is one the engine takes. -/
theorem test_least_record_is_taken (c : Nat) (h : crcOf (record0.flatMap fun w => beBytes w 4) = c) : capsOk (record0 ++ [c]) = true := by
  unfold capsOk
  simp only [test_record_before_its_crc, h]
  clear h
  simp [record0]

theorem test_meets_HeadsReportThroughTheLink :
    let s := st { dev [(pgEXT 3, EXT.EXT_STAT_STATE, exTRAINING)] with exts := [(3, { ext0 with tHead := some 5 })] }
    (Powered s ∧ exState s.dev 3 ≠ exDOWN ∧ exState s.dev 3 ≠ extRUNNING ∧ (extRt s.dev 3).tHead = some 5
      ∧ rd s.dev (pgEXT 3) EXT.EXT_STAT_FIBRE_LONG = 0)
      ∧ capsOk (record0 ++ [crcOf (record0.flatMap fun w => beBytes w 4)]) = true :=
  ⟨by decide +kernel, test_least_record_is_taken _ rfl⟩

theorem test_meets_ConversionsStoreTheirResults :
    let s (m : Mon) (v : Nat) := st { dev [(pgMSEQ, MSEQ.SEQ_B_STORE 63, v)] with mon := m }
    let svc := s { mon0 with cur := .svc, slot := 13 } 0
    let seq := s { mon0 with cur := .seq, entry := 63 } 1
    (Powered svc ∧ svc.dev.mon.cur = .svc ∧ svc.dev.mon.slot < 14)
    ∧ (Powered seq ∧ seq.dev.mon.cur = .seq ∧ seq.dev.mon.entry < 64 ∧ rd seq.dev pgMSEQ (MSEQ.SEQ_B_STORE 63) = 1
      ∧ seq.dev.mon.ring.length ≤ 1022)
    ∧ (s { mon0 with cur := .seq, entry := 63, ring := List.replicate 1024 0 } 1).dev.mon.ring.length = 1024
    ∧ rd (s { mon0 with cur := .seq, entry := 63 } 0).dev pgMSEQ (MSEQ.SEQ_B_STORE 63) = 0 := by decide +kernel

theorem test_meets_TheSequenceStepsThroughItsEntries :
    let s (m : Mon) (v : Nat) := st { dev [(pgMON, MON.MON_CTRL_EN, v)] with mon := m }
    (Powered (s mon0 0) ∧ (hdr (s mon0 0).dev pgMSEQ).pending = false ∧ Unlocked (s mon0 0).dev pgMON
      ∧ rd (s mon0 0).dev pgMON MON.MON_CTRL_EN = 0 ∧ (s mon0 0).dev.mon.stop = false)
    ∧ rd (s mon0 1).dev pgMON MON.MON_CTRL_EN = 1 ∧ (s { mon0 with stop := true } 0).dev.mon.stop = true
    ∧ (let d := s { mon0 with phase := .delay, entry := 63 } 1
       d.dev.mon.phase = .delay ∧ d.dev.mon.stop = false ∧ d.dev.mon.restart = false) := by decide +kernel

theorem test_meets_BurstsAndCalibrationsEnd :
    let s (b : Burst) (z : Option (Nat × Nat)) := st { chain txBIASING chain0 with mon := { mon0 with bursts := [b], zero := z, save := some (1, 7, 8) } }
    (Powered (s ⟨.chain 3, 256, 9⟩ none) ∧ (s ⟨.chain 3, 256, 9⟩ none).dev.mon.bursts = [⟨.chain 3, 256, 9⟩])
    ∧ ((s ⟨.zero 1, 256, 9⟩ none).dev.mon.bursts = [⟨.zero 1, 256, 9⟩])
    ∧ ((s ⟨.full 1, 256, 9⟩ (some (1, 2))).dev.mon.zero = some (1, 2))
    ∧ ((s ⟨.chain 3, 255, 9⟩ none).dev.mon.bursts = [⟨.chain 3, 255, 9⟩] ∧ txState (s ⟨.chain 3, 255, 9⟩ none).dev 3 = txBIASING)
    ∧ (Unlocked (s ⟨.full 1, 0, 0⟩ none).dev pgMON ∧ (s ⟨.full 1, 0, 0⟩ none).dev.mon.save = some (1, 7, 8)) := by decide +kernel

theorem test_meets_FeedsTripRetryAndLatch :
    let s (x r : Nat) := st (dev [(pgDCF 3, DCF.DCF_STAT_STATE, x), (pgDCF 3, DCF.DCF_STAT_RETRY, r), (pgDCF 3, DCF.DCF_OPEN_OPEN_TH, 1),
      (pgDCF 3, DCF.DCF_STAT_OPEN, if r = 3 then 1 else 0)])
    (Powered (s dcfON 0) ∧ Unlocked (s dcfON 0).dev (pgDCF 3) ∧ dcfState (s dcfON 0).dev 3 = dcfON ∧ dcfState (s dcfLATCHED 3).dev 3 = dcfLATCHED)
    ∧ (dcfState (s dcfRETRY 3).dev 3 = dcfRETRY ∧ dcfHeld (s dcfRETRY 3).dev = false)
    ∧ (dcfState (s dcfRAMP 0).dev 3 = dcfRAMP ∧ 95 * dcfVolts (rd (s dcfRAMP 0).dev (pgDCF 3) DCF.DCF_CTRL_VSEL) ≤ (1140 : BitVec 16).toNat)
    ∧ ((9 : BitVec 16).toNat < 10 * rd (s dcfON 0).dev (pgDCF 3) DCF.DCF_OPEN_OPEN_TH ∧ rd (s dcfON 0).dev (pgDCF 3) DCF.DCF_STAT_OPEN = 0)
    ∧ (10 * rd (s dcfON 3).dev (pgDCF 3) DCF.DCF_OPEN_OPEN_TH + 10 ≤ (20 : BitVec 16).toNat
      ∧ rd (s dcfON 3).dev (pgDCF 3) DCF.DCF_STAT_OPEN = 1) := by decide +kernel

theorem test_meets_ThePowerCapStepsAndSheds :
    let s (w : Pwr) (n : Nat) := st { segs [0, 1023] [(pgPWR, PWR.PWR_CAP_CAP, 50), (pgPWR, PWR.PWR_STAT_STEPS, n)] with pwr := w }
    (Powered (s pwr0 5) ∧ rd (s pwr0 5).dev pgPWR PWR.PWR_CAP_CAP ≠ 0 ∧ (s { pwr0 with sinceChange := 3 } 5).dev.pwr.sinceChange < 4
      ∧ 4 ≤ (s pwr0 5).dev.pwr.sinceChange ∧ 10 * rd (s pwr0 5).dev pgPWR PWR.PWR_CAP_CAP < (501 : BitVec 16).toNat
      ∧ rd (s pwr0 5).dev pgPWR PWR.PWR_STAT_STEPS < 6)
    ∧ (6 ≤ rd (s pwr0 6).dev pgPWR PWR.PWR_STAT_STEPS ∧ shedPick (s pwr0 6).dev (fun _ => true) = some 1023)
    ∧ ((400 : BitVec 16).toNat + 100 ≤ 10 * rd (s pwr0 1).dev pgPWR PWR.PWR_CAP_CAP
      ∧ 9 ≤ (s { pwr0 with underRun := 9 } 1).dev.pwr.underRun ∧ (s pwr0 1).dev.pwr.shedCap = []) := by decide +kernel

theorem test_meets_SensorsThrottleAndShutZones :
    let s := st { segs [1023] [(pgTHM, THM.SNS_STEPS 0, 6), (pgTHM, THM.SNS_CLASS 0, 1), (pgSEG 1023, SEG.ROUTE_OUT_MASK, 1), (pgTHM, THM.ZONE_SHUT 7, 1)]
      with pwr := { pwr0 with sensors := [(0, { sensor0 with filt := 5000 })], cool := [(7, 600)] }, trust := { trust0 with held := some (2, 9, 60) } }
    (Powered s ∧ snsMapped s.dev 9 = false ∧ snsFailed s.dev 0 = false ∧ snsClass s.dev 0 ≠ 0 ∧ snsBad s.dev 0 = false ∧ snsSteps s.dev 0 = 6
      ∧ snsThrOf s.dev 0 + 180 < snsReading s.dev 0
      ∧ shedPick s.dev (fun n => decide (4 ≤ (0 : Nat)) || hasOut s.dev n 0) = some 1023)
    ∧ (snsShutOf s.dev 8 < 32767 ∧ zoneShut s.dev (zoneOf 8) = false ∧ zoneShut s.dev 7 = true ∧ 600 ≤ tget (fun _ => 0) s.dev.pwr.cool 7)
    ∧ (Unlocked s.dev pgTHM ∧ s.dev.trust.held = some (2, 9, 60) ∧ snsFailed s.dev (substOf 9) = false ∧ snsMapped s.dev (substOf 9) = false)
      := by decide +kernel

theorem test_meets_ConvertersCalibrateAndSave :
    let f (i : Nat) : List (Nat × Fld × Nat) := [(pgCONV i, CONV.CONV_CTRL_BG_EN, 1), (pgCONV i, CONV.CAL_STAT_BG_CONV, 1)]
    let d := dev ((pgCGLB, CGLB.GLB_STAT_SAVE_BUSY, 1) :: convs12.flatMap f)
    let s := st { d with conv := { conv0 with running := [(11, 0)] }, mode := .test }
    Powered s ∧ (∀ i : Fin 12, Unlocked s.dev (pgCONV i)) ∧ Unlocked s.dev pgCGLB ∧ (s.dev.conv.running.any fun e => decide (e.1 = 11)) = true
      ∧ (s.dev.conv.running.filter fun x => decide (x.1 ≠ 11)) = [] ∧ s.dev.mode = .test
      ∧ (convs12.all fun i => rdB s.dev (pgCONV i) CONV.CAL_STAT_BG_CONV) = true
      ∧ rd s.dev pgCGLB CGLB.GLB_STAT_SAVE_BUSY = 1 ∧ rd s.dev (pgCONV 0) CONV.CONV_CTRL_BG_EN = 1 ∧ calState s.dev 0 ≠ calRUNNING
      ∧ s.dev.conv.spur.contains 0 = false ∧ (st { d with conv := conv0 }).dev.conv.running = [] := by decide +kernel

theorem test_meets_EndpointResetsReachTheMaster :
    let s := st { dev [] with boot := { boot0 with phase := .waitMaster }, rep := { rep0 with msix := [(2047, { msix0 with pend := true })], msixEn := true } }
    Powered s ∧ rd s.dev pgHOST HOST.LINK_STAT_UP = 0 ∧ twf (fun _ => msix0) s.dev.rep.msix = true
      ∧ (tget (fun _ => msix0) s.dev.rep.msix 2047).pend = true ∧ s.dev.boot.phase = .waitMaster ∧ hasAlt s.dev 4 = false
      ∧ rd (dev [(pgHOST, HOST.LINK_STAT_UP, 1)]) pgHOST HOST.LINK_STAT_UP = 1
      ∧ (dev []).boot.phase ≠ .waitMaster := by decide +kernel

theorem test_meets_RingsAndQueuesServeTheMaster :
    let s := st { segs [1023] [(pgQ (qSeg 1023 8), QB.Q_CFG_EN 0, 1), (pgRING, RING.RING_CFG_IE 63, 1), (pgHOST, HOST.MASTER_SEL, 1)]
      with rep := { rep0 with rings := [(63, { ring0 with modPend := true })] } }
    (Powered s ∧ Unlocked s.dev pgRING ∧ rd s.dev pgRING (RING.RING_CFG_EN 63) = 0 ∧ (ringOf s.dev.rep 63).modPend = true
      ∧ rd s.dev pgRING (RING.RING_CFG_IE 63) = 1 ∧ agentMaster s.dev = true
      ∧ Unlocked s.dev (qPage (queueKey (.seg 16383))) ∧ Unlocked s.dev (qPage (queueKey (.glob 7))))
    ∧ (s.dev.act = [1023] ∧ rd s.dev (pgQ (qSeg 1023 8)) (QB.Q_CFG_EN 0) = 1 ∧ rd s.dev (pgQ (qSeg 1023 8)) (QB.Q_WM_LEVEL 0) = 0
      ∧ rd s.dev pgRING (RING.RING_CFG_EN (rd s.dev (pgQ (qSeg 1023 8)) (QB.Q_CFG_RING 0))) = 0
      ∧ s.dev.rep.flt.away.contains 132 = false ∧ s.dev.rep.storeUsed + 2 ≤ storeWords
      ∧ qFill (queueOf s.dev.rep (qSeg 1023 8)) + 2 ≤ rd s.dev (pgQ (qSeg 1023 8)) (QB.Q_LIMIT_LIMIT 0)) := by decide +kernel

/-- An engine past the DRAM step. -/
def started (l : List (Nat × Fld × Nat)) : Dev := { dev l with boot := { boot0 with passed := 10, phase := .done }, mode := .service }

theorem test_meets_DmaChannelsMoveDataAndHalt :
    let s (x n : Nat) := st (started [(pgDMA, DMA.DMA_CFG_EN 15, 1), (pgDMA, DMA.DMA_STAT_STATE 15, x), (pgDMA, DMA.DMA_STAT_INFLIGHT 15, n)])
    (Powered (s dmaRUNNING 1) ∧ Unlocked (s dmaRUNNING 1).dev pgDMA ∧ rd (s dmaRUNNING 1).dev pgDMA (DMA.DMA_CFG_EN 15) = 1
      ∧ rd (s dmaRUNNING 1).dev pgDMA (DMA.DMA_STAT_STATE 15) = dmaRUNNING ∧ 0 < rd (s dmaRUNNING 1).dev pgDMA (DMA.DMA_STAT_INFLIGHT 15)
      ∧ streamOf (s dmaRUNNING 1).dev 15 = none ∧ capUsable (s dmaRUNNING 1).dev = true)
    ∧ rd (s dmaHALTED 0).dev pgDMA (DMA.DMA_STAT_STATE 15) = dmaHALTED
    ∧ (let z := fields (s dmaRUNNING 1).dev [(pgCAP, CAP.CAP_STAT_STATE 31, 1), (pgCAP, CAP.CAP_CTRL_MODE 31, 2), (pgCAP, CAP.CAP_CTRL_DMA_CH 31, 15)]
       let t := st { z with capChs := [(31, { capCh0 with filled := [0] })] }
       streamOf t.dev 15 = some 31 ∧ (capRt t.dev 31).filled = [0] ∧ streamOf z 15 = some 31 ∧ (capRt z 31).filled = []) := by decide +kernel

theorem test_meets_CapturesFillTheirBuffers :
    let s (x m : Nat) := st (started [(pgCAP, CAP.CAP_STAT_STATE 31, x), (pgCAP, CAP.CAP_CTRL_MODE 31, m), (pgCAP, CAP.CAP_LEN_SIZE 31, 32)])
    4096 < (4095 : Fin 1073741824).val % 4096 + windowLen (.read 2)
    ∧ (Powered (s 0 0) ∧ Unlocked (s 0 0).dev pgCAP ∧ rd (s 0 0).dev pgCAP (CAP.CAP_STAT_STATE 31) ≠ 1 ∧ capStartOk (s 0 0).dev 31 = true)
    ∧ ([0, 1, 2].all fun m => decide (rd (s 1 m).dev pgCAP (CAP.CAP_STAT_STATE 31) = 1 ∧ rd (s 1 m).dev pgCAP (CAP.CAP_CTRL_MODE 31) = m)) = true
    ∧ capUsable (s 0 0).dev = true ∧ rd (s 1 2).dev pgCAP (CAP.CAP_LEN_SIZE 31) / 16 = 2 ∧ (capRt (s 1 2).dev 31).filled = []
    ∧ (let z := { (s 1 2).dev with capChs := [(31, { capCh0 with filled := [0, 1] })] }
       2 ≤ (capRt z 31).filled.length ∧ (capRt z 31).lost = 0) := by decide +kernel

theorem test_meets_StartAttemptsStepThroughTheirSteps :
    let s (n : Nat) (p : BootPhase) := st { segs [0] [(pgBOOT, BOOT.BOOT_STAT_STEP, n), (pgSEG 0, SEG.ISO_STAT_VALID, 1), (pgBOOT, BOOT.BOOT_PEND_FT_BUSY, 1)]
      with boot := { boot0 with phase := p } }
    ([1, 2, 3, 4, 5, 6, 7, 8, 9].all fun n => decide (Powered (s n .step) ∧ Unlocked (s n .step).dev pgBOOT ∧ (s n .step).dev.mode = .start
      ∧ rd (s n .step).dev pgBOOT BOOT.BOOT_STAT_STEP = n ∧ (s n .step).dev.boot.entryOpen = false)) = true
    ∧ (imageCause (s 3 .step).dev step1.image 0 = 0 ∧ imageCause (s 3 .step).dev { step1.image with key := false } 0 = 6
      ∧ rd (s 6 .step).dev pgBOOT BOOT.BOOT_STAT_ALT = 0 ∧ rd (s 6 .step).dev pgCGLB CGLB.GLB_STAT_CAL_FAIL = 0
      ∧ rd (s 8 .step).dev pgMON MON.REF_STAT_FAIL0 = 0 ∧ rd (s 8 .step).dev pgHOST HOST.MASTER_READY = 0
      ∧ clocksLocked (s 9 .step).dev = true ∧ (s 9 .step).dev.act ≠ [])
    ∧ ([BootPhase.retryRails, .retryRom, .survey, .ramp].all fun p => decide ((s 0 p).dev.boot.phase = p ∧ (s 0 p).dev.mode = .start)) = true
    ∧ (st { (s 1 .step).dev with boot := { (s 1 .step).dev.boot with entryOpen := true, journal := [⟨1, 0, 3, 0, 0, 0, 0, 0, 0⟩] } }).dev.boot.entryOpen = true
    ∧ trustOut (s 0 .ramp).dev = false
    ∧ rd (s 0 .ramp).dev pgBOOT BOOT.BOOT_PEND_FT_BUSY = 1 := by decide +kernel

theorem test_meets_InjectorsArmAndEndInTest :
    let h : Held := ⟨⟨1, 0, 1, 0, 0, 0, 0, []⟩, 0, 0, false⟩
    let q := [(16383, { queue0 with kept := some h })]
    let held := [(7, { inj0 with held := some [1, 3, 16383, 0] }), (6, { inj0 with held := some [1, 2, 7, 0] }), (5, { inj0 with held := some [1, 2, 15, 1] })]
    let s := st { dev [] with mode := .test, rep := { rep0 with inj := held, queues := q }, lnk := { lnk0 with heldTx := [(7, some (msg0, false))] } }
    (Powered s ∧ Unlocked s.dev pgPROV ∧ rd s.dev pgPROV (INJ.INJ_TGT_KIND 7) = (0 : BitVec 3).toNat
      ∧ rd s.dev pgPROV (INJ.INJ_TGT_INDEX 7) = (0 : BitVec 16).toNat ∧ (injOf s.dev.rep 0).held = none)
    ∧ ((injOf s.dev.rep 7).held = some [1, 3, 16383, 0] ∧ (queueOf s.dev.rep 16383).kept = some h
      ∧ rd s.dev pgRING (RING.RING_CFG_EN (rd s.dev (qPage 16383) (QB.Q_CFG_RING (qBlk 16383)))) = 0
      ∧ (injOf s.dev.rep 6).held = some [1, 2, 7, 0] ∧ heldTxOf s.dev 7 = some (msg0, false)
      ∧ (injOf s.dev.rep 5).held = some [1, 2, 15, 1] ∧ heldRxOf s.dev 15 = none)
    ∧ rd s.dev pgFLT FLT.FLT_CFG_FORCE_REACT = 0 := by decide +kernel

theorem test_meets_TallyKeepsItsRecords :
    let s (t : Tally) := st { dev [] with rep := { rep0 with tally := t }, trust := { trust0 with held := some (1, 7, 60) } }
    let t : Tally := { tally0 with on := true, erasing := 7, fetch := some (0, 0, 0), exporting := some (0, 1, 4096, false) }
    (Powered (s tally0) ∧ Unlocked (s tally0).dev pgTAL ∧ Unlocked (s tally0).dev pgTRD ∧ (s tally0).dev.rep.tally.pendRec = none
      ∧ (s tally0).dev.rep.tally.deferred = [] ∧ (s tally0).dev.rep.tally.again = false ∧ (hdr (s tally0).dev pgTAL).enable = true)
    ∧ ((s t).dev.rep.tally.on = true ∧ (s t).dev.rep.tally.staged = [] ∧ (s t).dev.rep.tally.next < 281474976710656
      ∧ (s t).dev.rep.tally.erasing ≠ 0 ∧ (s t).dev.rep.tally.fetch = some (0, 0, 0)
      ∧ (s t).dev.rep.tally.exporting = some (0, 1, 4096, false))
    ∧ ((s tally0).dev.trust.held = some (1, 7, 60) ∧ 7 % 4 = (3 : BitVec 2).toNat ∧ (3 : BitVec 2) ≠ 0
      ∧ (s tally0).dev.rep.tally.annex.length < 256) := by decide +kernel

theorem test_meets_ImagesReportsAndTokensAreChecked :
    let s := st (started [])
    let t := st { started [] with trust := { trust0 with install := some (1, 2, 3, true), running := some 0, imgKeys := [⟨0, []⟩], held := some (1, 1, 1) } }
    (Powered s ∧ Unlocked s.dev pgIMG ∧ Unlocked s.dev pgTRUST ∧ (hdr s.dev pgTRUST).enable = true ∧ s.dev.mode ≠ .start
      ∧ s.dev.trust.install = none ∧ ¬ 25769803776 < 4096 * rd s.dev pgIMG IMG.IMG_SRC_SRC + rd s.dev pgIMG IMG.IMG_LEN_LEN
      ∧ s.dev.trust.running ≠ some 1 ∧ memField [(0, 0x4F), (1, 0x56), (2, 0x4D), (3, 0x31)] 0 4 = 0x314D564F)
    ∧ (Powered t ∧ t.dev.trust.install = some (1, 2, 3, true) ∧ t.dev.trust.imgKeys[0]? = some ⟨0, []⟩) := by decide +kernel

theorem test_meets_TheFirstKeyIsEnrolled :
    let s := st (dev [(pgMODE, MODE.STRAP_BOOT_MODE, 3)])
    Powered s ∧ (hdr s.dev pgTRUST).enable = true ∧ Unlocked s.dev pgTRUST ∧ (∀ k : Fin 8, opKey' s.dev.trust k = none)
      ∧ rd s.dev pgMODE MODE.STRAP_BOOT_MODE = 3 ∧ 4096 * rd s.dev pgTRUST TRUST.TOK_SRC_SRC + 68 ≤ 25769803776 := by decide +kernel

/-! Behaviour: the spec's worked examples, and numbers worked by hand from its rules -/

/-- Harrowmere's loop of SEG[16] with its latch of period k (Table 6.3). -/
def fade : Latched :=
  let sets := [⟨0, 0, 0, 0, 0⟩, ⟨0, 0, 0, 0, 0⟩, ⟨0x0400, 0x019A, 0, 0x3333, 0x8000⟩, ⟨0, 0, 0, 0, 0⟩, ⟨0x0800, 0x0333, 0x0040, 0x3333, 0x8000⟩]
  let c := { latched0.cfg with sp := 400, spLo := 200, spHi := 600, rate := 0, floor := 0, up := 20, dn := 0, th1 := -1900, th2 := -1500, th3 := -1100,
                               hyst := 20, mTh := 60, mHyst := 20, sets := sets }
  { latched0 with cfg := c, srcs := [1900, 1960, 2200, 2200, 2200, 2200], inL := -1524, outL := 296 }
def before : Ctx :=
  { ctx0 with gain := 1828, integ := 8 * 65536, yf := some (400 * 65536), spr := 400 * 65536, region := some 2,
              used := some ⟨0x0800, 0x0333, 0x0040, 0x3333, 0x8000⟩, auto := true, target := 400 }

/-- Table 6.3: the swap presets the integrator to -50, and the gain written is 1,848 of a cap of 1,900 from source 0. -/
theorem test_loop_swap_of_table_6_3 :
    let r := (evalCtx fade before).res
    r.gain = 1848 ∧ r.cap = 1900 ∧ r.src = 0 ∧ r.set = 2 ∧ r.swapped = true ∧ (evalCtx fade before).integ = -50 * 65536 := by
  decide +kernel

/-- Table 7.5: min(82 dB + 21 dB, 104 dB) less 15 dB is 88 dB; a guard failure leaves 76 dB less 15 dB. -/
theorem test_isolation_cap_of_table_7_5 :
    let s := segs [8] [(pgSEG 8, SEG.ISO_STAT_VALID, 1), (pgSEG 8, SEG.ISO_STAT_ISO, 1640), (pgSEG 8, SEG.ISO_AUX_ISO_X, 2080),
      (pgSEG 8, SEG.CANC_STAT_CREDIT, 420), (pgSEG 8, SEG.ISO_CFG_MARGIN, 300)]
    isoCap s 8 = (1760, 0) ∧ isoCap (fields s [(pgSEG 8, SEG.ISO_STAT_GUARD, 1), (pgSEG 8, SEG.ISO_STAT_ISO, 1520)]) 8 = (1220, 1) := by
  decide +kernel

/-- R265 rounds 10 log10 3 = 4.771 dB to 95 units, and 10 log10 1,024 = 30.103 dB to 602. -/
theorem test_log_units : logUnits 1 = 0 ∧ logUnits 3 = 95 ∧ logUnits 1024 = 602 := by decide +kernel

/-- The calibration of AIN0 worked after R333 gives OFFSET 0x0278 and GAIN 0x825B. -/
theorem test_monitor_calibration_of_ain0 :
    (calFull (dev []) 0 2107264 4084160).mon.save = some (0, 0x0278, 0x825B) := by decide +kernel

/-- With that CORR[12], code 11,507 becomes 11,528. -/
theorem test_corrected_code_of_ain0 :
    corrected14 (dev [(pgMCOR, MCOR.CORR_OFFSET 12, 0x0278), (pgMCOR, MCOR.CORR_GAIN 12, 0x825B)]) 12 11507 = 11528 := by
  decide +kernel

/-- PATH_CFG = 0xC206_0004 of SEG[26]: ACTIVE, uplink, clock 2, k = 1, SHARP, group 4. -/
theorem test_path_cfg_of_seg_26 :
    let d := setReg (segs [26] []) (pgSEG 26) 0x40 0xC2060004
    isActive d 26 = true ∧ rd d (pgSEG 26) SEG.PATH_CFG_DIR = 1 ∧ clockOf d 26 = 2 ∧ rd d (pgSEG 26) SEG.PATH_CFG_RATE = 1
      ∧ rd d (pgSEG 26) SEG.PATH_CFG_PROFILE = 2 ∧ groupOf d 26 = 4 := by decide +kernel

/-- POWER_ON leaves no byte of capture memory listed, and takes of each strap what two of its three reads found (R470). -/
theorem test_power_on_begins_start :
    let t := after (.powerOn (3, 2, 1) (true, false, true)) { st (dev0 part) with cap := [(5, 7)] }
    t.cap = [] ∧ t.dev.mode = .start ∧ t.dev.supply = .on ∧ rd t.dev pgMODE MODE.STRAP_BOOT_MODE = 3
      ∧ rd t.dev pgMODE MODE.STRAP_MASTER_SEL = 1 := by decide +kernel

/-- A restart without the key 0xD5 is refused, and the page shows the offset of MODE_CMD; with it START begins. -/
theorem test_host_restart_needs_its_key :
    let d := { dev [] with mode := .service }
    let t := devAfter (.hostRestart 0xD4) d
    t.mode = .service ∧ (hdr t pgMODE).error = true ∧ (hdr t pgMODE).errOffs = 0x44
      ∧ (devAfter (.hostRestart 0xD5) d).mode = .start := by decide +kernel

/-- NODE_ID takes 0x3E80 while no segment is active, and never 0x3E81 or 0. -/
theorem test_node_id_bounds :
    rd (devAfter (.nodeIdWrite 0x3E80) (dev [])) pgPRB PRB.NODE_NODE_ID = 0x3E80
      ∧ rd (devAfter (.nodeIdWrite 0x3E81) (dev [])) pgPRB PRB.NODE_NODE_ID = 0 ∧ (hdr (devAfter (.nodeIdWrite 0) (dev [])) pgPRB).error = true
      ∧ rd (devAfter (.nodeIdWrite 1) (segs [0] [])) pgPRB PRB.NODE_NODE_ID = 0 := by decide +kernel

/-- PWR_CAP takes 380 W and not 381 W (R354). -/
theorem test_power_cap_bounds :
    rd (devAfter (.regWrite 0xB0 17 380) (dev [])) pgPWR PWR.PWR_CAP_CAP = 380
      ∧ rd (devAfter (.regWrite 0xB0 17 381) (dev [])) pgPWR PWR.PWR_CAP_CAP = 0
      ∧ (hdr (devAfter (.regWrite 0xB0 17 381) (dev [])) pgPWR).errOffs = 0x44 := by decide +kernel

/-- A write of SP_MAP stores into the shadow bank, and the active bank keeps its reset value (R11, Table 6.13). -/
theorem test_shadow_write_waits_for_commit :
    let d := devAfter (.regWrite (Fin.ofNat _ (pgLOOP 3)) 18 0x01900064) (dev [])
    rdSh d (pgLOOP 3) LOOP.SP_MAP_SP_HI = 400 ∧ rdSh d (pgLOOP 3) LOOP.SP_MAP_SP_LO = 100
      ∧ rd d (pgLOOP 3) LOOP.SP_MAP_SP_HI = 600 ∧ rd d (pgLOOP 3) LOOP.SP_MAP_SP_LO = 200 := by decide +kernel

/-- A run of clipped samples is one event of the port's DAC (R64), and INT_RAW bit 2 is set. -/
theorem test_dac_clip_counts_a_run :
    rd (devAfter (.dacClip 2) (dev [(0x46, CONV.OVR_CNT_EVENTS, 41)])) 0x46 CONV.OVR_CNT_EVENTS = 42 := by decide +kernel

/-- A read of the capture window returns nothing written as 0; an access across a block of 4 KiB is no access. -/
theorem test_window_write_then_crossing_access :
    let s := st { dev [] with boot := { boot0 with passed := 10, phase := .done } }
    (after (.captureWindowAccess 4094 (.write [1, 2])) s).cap = [(4094, 1), (4095, 2)]
      ∧ (exec (.captureWindowAccess 4095 (.read 2)) s matches .fault .crossesBlock) = true := by decide +kernel

/-- A read of DEV_LOOP_LO holds the upper half for the read that follows (R144). -/
theorem test_device_time_read :
    let d := { dev [] with devLoop := 0x1_0000_0002 }
    (devAfter .devLoopRead d).devHi = 1 := by decide +kernel

/-- The table spells no command by a word. -/
theorem test_no_word_spells_a_command : decodeTableWord 32 0 = none ∧ State.reset.withFetchWord 32 5 = State.reset := ⟨rfl, rfl⟩

/-- The gain of Table 6.4 is written at phase 25.00 µs: SWAPS + 1, INT_RAW bit 5. -/
theorem test_gain_is_written_with_its_event :
    let d := { segs [16] [] with ctxs := [(16, { evalCtx fade before with due := true })], evaluated := true }
    (ctxRt (devAfter .loopGainWrite d) 16).gain = 1848 ∧ rd (devAfter .loopGainWrite d) (pgLOOP 16) LOOP.LOOP_CNT_SWAPS = 1
      ∧ rawBit (devAfter .loopGainWrite d) (pgLOOP 16) 5 = true := by decide +kernel

/-- A feed that trips four times latches: three retries (R46). -/
theorem test_feed_trip_then_latch :
    let d (r : Nat) := dev [(pgDCF 1, DCF.DCF_STAT_STATE, dcfON), (pgDCF 1, DCF.DCF_STAT_RETRY, r)]
    dcfState (devAfter (.dcfOvercurrentTrip 1) (d 0)) 1 = dcfRETRY ∧ dcfState (devAfter (.dcfOvercurrentTrip 1) (d 3)) 1 = dcfLATCHED := by
  decide +kernel

/-- A ring of 1,024 results keeps its oldest and counts the one it discards (R331); a read takes the oldest. -/
theorem test_monitor_ring_overflow_and_read :
    let d := { dev [(pgMSEQ, MSEQ.SEQ_B_STORE 0, 1)] with mon := { mon0 with ring := [5, 6] } }
    (devAfter .monRingRead d).mon.ring = [6] ∧ rd (ringPut { d with mon := { mon0 with ring := List.replicate 1024 5 } } 9) pgMON MON.RING_STAT_DROPPED = 1 := by
  decide +kernel

/-- The throttle's cap: 88 dB less 1.5 dB a step (Table 13.6). -/
theorem test_thermal_cap_of_table_13_6 : refCap (.at 1760) 30 1 = 1730 ∧ refCap (.at 1760) 30 6 = 1580 ∧ refCap (.at 1760) 30 0 = 2200 := by decide

/-- The couplings of SEG[8], 82.17, 97.00 and 103.05 dB, sum to ISO 82.00 dB (R195); two equal powers are 3.01 dB more. -/
theorem test_isolation_of_seg_8 : psumC [-8217, -9700, -10305] = -1640 ∧ psum [0, 0] = 60 ∧ psum [] = -32768 := by decide +kernel

/-- The sequence of x^10 + x^7 + 1 after R185: u(9), u(12), u(15), u(18) and u(19) are the ones among the first twenty. -/
theorem test_first_sequence_of_table_7_1 :
    ((List.range 20).filter (codeU 0)) = [9, 12, 15, 18, 19] ∧ codeChips 3 = 65535 ∧ codeD 0 = 65 ∧ codeE 1 = 65 ∧ codePw 0 = 31 := by
  decide +kernel

/-- H[3][q] is negative where popcount(3 AND q) is odd (R186); a mask halfway between 5 and 10 dB has 7.5 dB, outside 60 dB (R191). -/
theorem test_cover_and_mask :
    ((List.range 4).map (coverNeg 3)) = [false, true, true, false]
      ∧ maskAtt [(-10, 100), (10, 200)] 0 = (3000, 20) ∧ maskAtt [(-10, 100), (10, 200)] 11 = (1200, 1) := by decide +kernel

/-- The polynomials and starting values of R220 on the digits 1 to 9: the published check values of these two CRCs. -/
theorem test_crcs_of_frames :
    crc8 (((List.range 9).map fun i => msbBits (0x31 + i) 8).flatten) = 0xF4 ∧ crc16 ((List.range 9).map (0x31 + ·)) = 0x29B1 := by
  decide +kernel

/-- A bit 1 through the code's two generators from the zero state gives the digits of 171 and 133 in turn, highest first. -/
theorem test_code_of_one_bit :
    convCode [true] = [true, true, true, false, true, true, true, true, false, false, false, true, true, true] := by decide +kernel

/-- The blocks of the 240 slots of a frame fill it, 12,208 in a superframe's first and 12,207 in the others (R298). -/
theorem test_slots_fill_the_frame : slotBlock 0 240 = 12208 ∧ slotBlock 31 240 = 12207 ∧ slotBlock 32 239 + 49 + slotOverhead 32 239 = 12208 := by
  decide +kernel

/-- A container's 28 bits hold a sample and its INV (R301). -/
theorem test_container_samples :
    contSample (contBits 8191 (-1) false) = (8191, -1, false) ∧ (contSample (contBits 5 7 true)).2.2 = true
      ∧ contBits 5 7 true = contBits 0 0 true := by decide +kernel

/-- Half a unit is rounded upwards, and a sum beyond 18 bits saturates (R87). -/
theorem test_stage_rounding : shiftWord 0 (65536, -65536) = ((1, 0), false) ∧ shiftWord 1 (131072 * 2 ^ 18, 0) = ((131071, 0), true) := by
  decide +kernel

/-- A sample that carries OVR gives way to the median of the other four, and does not where the Thresher is off (R85, R86). -/
theorem test_median_replaces_an_over_range :
    let w := [⟨(1, 1), false, false⟩, ⟨(3, 3), false, false⟩, ⟨(100, 0), true, false⟩, ⟨(3, 3), false, false⟩, ⟨(9, 9), false, false⟩]
    (thresh true 0 w).1.v = (3, 3) ∧ (thresh true 0 w).2 = true ∧ (thresh false 0 w).2 = false := by decide +kernel

/-- An ADC's code beyond full scale clamps with OVR and counts one event; the next sample carries INV (R63). -/
theorem test_adc_clamps_and_recovers :
    let d := convTake 0 8192 (dev [])
    (convSmps d 0).head? = some ⟨8191, true, false, false⟩ ∧ rd d (pgCONV 0) CONV.OVR_CNT_EVENTS = 1
      ∧ (convSmps (convTake 0 7 d) 0).head? = some ⟨7, false, true, false⟩ := by decide +kernel

/-- The oscillator's step for 491.52 MHz is a whole turn, and the nearest to 1 Hz is 9 (R82). -/
theorem test_oscillator_steps : ncoStep 491520000 = 4294967296 ∧ ncoStep 1 = 9 := by decide +kernel

/-- A mute takes the amplitude to zero in 64 samples (R95). -/
theorem test_mute_ramps_in_64_samples :
    let x := { segPath0 with amp := 64 }
    ((List.range 63).foldl (fun y _ => rampTick true y) x).amp = 1 ∧ ((List.range 64).foldl (fun y _ => rampTick true y) x).amp = 0 := by
  decide +kernel

/-- A read of OVR_CNT that comes beside the commands clears it (R11, Table 3.10). -/
theorem test_read_clears_the_counter :
    let s := { st (dev [(pgCONV 3, CONV.OVR_CNT_EVENTS, 41)]) with ambient := [.read (Fin.ofNat _ (pgCONV 3)) 21] }
    (match step s with
     | .next t => decide (rd t.dev (pgCONV 3) CONV.OVR_CNT_EVENTS = 0 ∧ t.ambient = [])
     | _ => false) = true := by decide +kernel

end Sys2Proof.Tests
end

section
/-!
The buffers of LOOP_GLB as they read, and BUF_DATA_READ (R179).
-/

namespace Sys2Proof.Machine

/-- A write of a field changes no register but its own. -/
theorem wr_onlyRegs (d : Dev) (p : Nat) (f : Fld) (v : Nat) (hf : f.off < 4096) : OnlyRegs d (wr d p f v) [(p, f.off)] := by
  intro q o ho hq
  rw [reg_wr, if_neg]
  rw [rkey_inj ho hf]
  rintro ⟨rfl, rfl⟩
  exact hq (List.mem_singleton_self _)

theorem wr_sameCore (d : Dev) (p : Nat) (f : Fld) (v : Nat) : SameCore d (wr d p f v) := (wr_any d p f v).sameCore

/-- LOOP_GLB is no window: what is read there is its own. -/
theorem windowPage_lglb (d : Dev) (off : Nat) : windowPage d pgLGLB off = pgLGLB := by
  simp [windowPage, pgLGLB, pgNPSW, pgNPGW, pgTHSW, pgSNAP]

theorem peek_bufData (d : Dev) : peek d pgLGLB 0x80 = bufEntry d := by
  have hocc : occupied pgLGLB = true := by decide
  have hnp : pgLGLB ≠ pgNP := by decide
  have hown : peekOwn d pgLGLB 0x80 = bufEntry d := rfl
  simp [peek, windowPage_lglb, hocc, hnp, hown]

theorem bufEntry_trace {d : Dev} (h : rd d pgLGLB LGLB.BUF_SEL_BUF < 8) :
    bufEntry d = tget (fun _ => 0) d.trace.bufs
      (4096 * rd d pgLGLB LGLB.BUF_SEL_BUF + rd d pgLGLB LGLB.BUF_IDX_IDX) := if_pos h

theorem bufEntry_response {d : Dev} (h : rd d pgLGLB LGLB.BUF_SEL_BUF = 8)
    (hi : rd d pgLGLB LGLB.BUF_IDX_IDX < 1024) :
    bufEntry d = tget (fun _ => 0) d.trace.resp (rd d pgLGLB LGLB.BUF_IDX_IDX) := by
  simp [bufEntry, h, Nat.mod_eq_of_lt hi]

/-- Neither wrap exceeds the 12 bits of BUF_IDX, so the index is stored whole. -/
theorem bufRead_index (d : Dev) :
    rd (bufRead d) pgLGLB LGLB.BUF_IDX_IDX =
      (rd d pgLGLB LGLB.BUF_IDX_IDX + 1) % (if rd d pgLGLB LGLB.BUF_SEL_BUF = 8 then 1024 else 4096) := by
  rw [bufRead, rd_wr_same _ _ _ _ (by decide)]
  apply Nat.mod_eq_of_lt
  show _ < 4096
  split <;> omega

theorem bufRead_onlyRegs (d : Dev) : OnlyRegs d (bufRead d) [(pgLGLB, 0x7C)] := wr_onlyRegs _ _ _ _ (by decide)

theorem bufRead_sameCore (d : Dev) : SameCore d (bufRead d) := wr_sameCore ..

@[simp] theorem bufRead_rep (d : Dev) : (bufRead d).rep = d.rep := rfl
@[simp] theorem bufRead_trace (d : Dev) : (bufRead d).trace = d.trace := rfl

@[simp] theorem answer_trace (d : Dev) (p o : Nat) : (answer d p o).trace = d.trace := rfl
@[simp] theorem answer_rd (d : Dev) (p o q : Nat) (f : Fld) : rd (answer d p o) q f = rd d q f := rfl
@[simp] theorem answer_hdr (d : Dev) (p o : Nat) : (answer d p o).rep.hdr = d.rep.hdr := rfl
@[simp] theorem answer_out (d : Dev) (p o : Nat) :
    (answer d p o).rep.out = .readWord p o (peek d p o) :: d.rep.out := rfl

theorem exec_bufDataRead (s : State) :
    exec .bufDataRead s = onDev s fun d => bufRead (answer d pgLGLB 0x80) := rfl

/-- Settles O21: the answer is emitted from the state as it stood, and the read's own effect is one write of BUF_IDX. -/
theorem readingABufferReturnsTheEntry : Obligations.ReadingABufferReturnsTheEntry := by
  intro s hs
  refine does_onDev (exec_bufDataRead s) hs ⟨by simp, fun hb => ?trace, fun hb hi => ?response, ?index, by simp, by simp,
    ?regs, ?core⟩
  case trace => rw [peek_bufData, bufEntry_trace hb]
  case response => rw [peek_bufData, bufEntry_response hb hi]
  case index => rw [settle_rd, bufRead_index, answer_rd, answer_rd]
  case regs => exact bufRead_onlyRegs (answer s.dev pgLGLB 0x80)
  case core => exact bufRead_sameCore (answer s.dev pgLGLB 0x80)

end Sys2Proof.Machine
end

section
/-!
What it is to leave the first-fault latch (R409) as it is, and that the reporting operations and Tally do.
-/

namespace Sys2Proof.Machine

/-- INT_RAW bit 1 of FLT_GLB, which OVERFLOW raises (Table 16.5). -/
def overflowRaw (r : Rep) : Bool := (hdrOf r pgFLT).raw.getLsbD 1

theorem rawBit_flt (d : Dev) : rawBit d pgFLT 1 = overflowRaw d.rep := rfl

/-- The first-fault latch and its INT_RAW bit are unchanged. -/
structure LatchKept (r r' : Rep) : Prop where
  first : r'.flt.first = r.flt.first
  bit : overflowRaw r' = overflowRaw r

theorem LatchKept.refl (r : Rep) : LatchKept r r := ⟨rfl, rfl⟩

theorem LatchKept.trans {a b c : Rep} (h : LatchKept a b) (k : LatchKept b c) : LatchKept a c :=
  ⟨k.first.trans h.first, k.bit.trans h.bit⟩

/-- A change of neither headers nor the latch. -/
theorem LatchKept.same {r r' : Rep} (h : r'.hdr = r.hdr) (f : r'.flt.first = r.flt.first) : LatchKept r r' :=
  ⟨f, by rw [overflowRaw, overflowRaw, hdrOf, hdrOf, h]⟩

theorem LatchKept.of_rep {r r' : Rep} (h : r' = r) : LatchKept r r' := h ▸ .refl r

theorem LatchKept.ite {r : Rep} {a b : Dev} {p : Prop} [Decidable p] (h : LatchKept r a.rep) (k : LatchKept r b.rep) :
    LatchKept r (if p then a else b).rep := by
  split
  · exact h
  · exact k

theorem foldl_latch {α : Type} {f : Dev → α → Dev} (h : ∀ d a, LatchKept d.rep (f d a).rep) :
    ∀ (l : List α) (d : Dev), LatchKept d.rep (l.foldl f d).rep
  | [], d => .refl d.rep
  | a :: t, d => (h d a).trans (foldl_latch h t (f d a))

theorem forEach_latch {f : Nat → Dev → Dev} :
    ∀ (l : List Nat) (_ : ∀ n ∈ l, ∀ d, LatchKept d.rep (f n d).rep) (d : Dev), LatchKept d.rep (forEach l f d).rep
  | [], _, d => .refl d.rep
  | n :: t, h, d => (h n (List.mem_cons_self ..) d).trans
      (forEach_latch t (fun m hm => h m (List.mem_cons_of_mem _ hm)) (f n d))

theorem foldl_rep {α : Type} {f : Dev → α → Dev} (h : ∀ d a, (f d a).rep = d.rep) :
    ∀ (l : List α) (d : Dev), (l.foldl f d).rep = d.rep
  | [], _ => rfl
  | a :: t, d => (foldl_rep h t (f d a)).trans (h d a)

theorem forEach_rep {f : Nat → Dev → Dev} (h : ∀ n d, (f n d).rep = d.rep) (l : List Nat) (d : Dev) :
    (forEach l f d).rep = d.rep := foldl_rep (fun d n => h n d) l d

/-! Reports -/

theorem sendVec_hdr (d : Dev) (r : Rep) (v : Nat) : (sendVec d r v).hdr = r.hdr := by
  unfold sendVec
  extract_lets e
  split
  · rfl
  · split
    · rfl
    · split <;> rfl

theorem vecEvent_hdr (d : Dev) (r : Rep) (p : Nat) : (vecEvent d r p).hdr = r.hdr := by
  unfold vecEvent
  split
  · exact sendVec_hdr ..
  · rfl

/-- An event sets its INT_RAW bits in its page's header, and changes no header else. -/
theorem hdrOf_raiseVec (d : Dev) (r : Rep) (p bits q : Nat) :
    hdrOf (raiseVec d r p bits) q =
      if q = p then { hdrOf r p with raw := (hdrOf r p).raw ||| BitVec.ofNat 32 bits } else hdrOf r q := by
  rw [← hdrOf_setHdr]
  unfold raiseVec
  extract_lets h b r1
  split
  · rfl
  · rw [hdrOf, vecEvent_hdr, ← hdrOf]

/-- An event of another page, or of FLT_GLB in another bit, leaves the latch. -/
theorem raiseVec_latch (d : Dev) (r : Rep) {p bits : Nat} (h : p = pgFLT → bits.testBit 1 = false) :
    LatchKept r (raiseVec d r p bits) := by
  refine ⟨by rw [(raiseVec_reports ..).flt], ?_⟩
  rw [overflowRaw, hdrOf_raiseVec]
  by_cases e : pgFLT = p
  · subst e
    simp only [if_true, BitVec.getLsbD_or, BitVec.getLsbD_ofNat, h rfl, Bool.and_false, Bool.or_false, overflowRaw]
  · rw [if_neg e, overflowRaw]

theorem foldEmit_hdr (f : Nat → List Nat → Out) : ∀ (l : List (List Nat)) (a : Rep × Nat),
    (l.foldl (fun a w => (emit a.1 (f a.2 w), a.2 + 1)) a).1.hdr = a.1.hdr
  | [], _ => rfl
  | w :: t, a => foldEmit_hdr f t (emit a.1 (f a.2 w), a.2 + 1)

theorem ringWrite_hdr (d : Dev) (r : Rep) (i : Nat) (it : Item) : (ringWrite d r i it).hdr = r.hdr := by
  unfold ringWrite
  extract_lets x base wb r1 h r2 r3 y
  have h3 : r3.hdr = r.hdr :=
    foldEmit_hdr (fun n w => .memWrite (base + 16 * ((x.head + n) % ringSize d i)) w) _ (r, 0)
  clear_value r3
  split
  · split
    · rw [sendVec_hdr, h3]
    · split
      · exact h3
      · rw [sendVec_hdr]
        exact h3
  · exact h3

theorem ringWrite_latch (d : Dev) (r : Rep) (i : Nat) (it : Item) : LatchKept r (ringWrite d r i it) :=
  .same (ringWrite_hdr ..) (by rw [(ringWrite_reports ..).flt])

theorem releaseHeld_hdr (kind index dir : Nat) : ∀ (n i : Nat) (r : Rep), (releaseHeld r kind index dir n i).hdr = r.hdr
  | 0, _, _ => rfl
  | n + 1, i, r => by
    unfold releaseHeld
    dsimp only
    rw [releaseHeld_hdr kind index dir n (i + 1)]
    split <;> rfl

theorem releaseHeld_latch (r : Rep) (kind index dir n i : Nat) : LatchKept r (releaseHeld r kind index dir n i) :=
  .same (releaseHeld_hdr ..) (by rw [(releaseHeld_reports ..).flt])

theorem injItem_latch (d : Dev) (k : Nat) : ∀ (n i : Nat) (r : Rep) (it : Item), LatchKept r (injItem d k n i r it).1
  | 0, _, r, _ => .refl r
  | n + 1, i, r, it => by
    unfold injItem
    split
    · generalize injCount d i (injOf r i) = c
      obtain ⟨hit, x⟩ := c
      dsimp -zeta only
      extract_lets fin y r1 r2 act
      have h2 : LatchKept r r2 := by
        have h1 : LatchKept r r1 := .same rfl rfl
        unfold r2
        split
        · exact h1.trans (raiseVec_latch _ _ fun e => absurd e (by decide))
        · exact h1
      clear_value r2
      split
      · split
        · exact h2
        · split
          · exact h2.trans (injItem_latch ..)
          · exact h2.trans (.same rfl rfl)
      · exact h2.trans (injItem_latch ..)
    · exact injItem_latch d k n (i + 1) r it

theorem deliverRing_latch (d : Dev) : ∀ (fuel : Nat) (r : Rep) (i : Nat), LatchKept r (deliverRing d fuel r i)
  | 0, r, _ => .refl r
  | fuel + 1, r, i => by
    unfold deliverRing
    split
    · exact .refl r
    split
    · exact .refl r
    next k q _ =>
    split
    · exact .refl r
    next h t _ =>
    split
    · exact .refl r
    generalize hx : (if (h.seen || q.kept.isSome) = true then (r, InjRes.pass h.item) else injItem d k 8 0 r h.item) = x
    have hr : LatchKept r x.1 := by
      rw [← hx]
      split
      · exact .refl r
      · exact injItem_latch ..
    obtain ⟨r1, res⟩ := x
    cases res with
    | drop =>
      refine LatchKept.trans ?_ (deliverRing_latch d fuel _ i)
      exact hr.trans (.same rfl rfl)
    | hold =>
      refine LatchKept.trans ?_ (deliverRing_latch d fuel _ i)
      exact hr.trans (.same rfl rfl)
    | pass it =>
      dsimp only
      have hw : LatchKept r (ringWrite d r1 i it) := hr.trans (ringWrite_latch ..)
      have hh : LatchKept r (if q.kept.isSome = true then releaseHeld (ringWrite d r1 i it) 3 (injQueue k) 0 8 0
          else ringWrite d r1 i it) := by
        split
        · exact hw.trans (releaseHeld_latch ..)
        · exact hw
      refine LatchKept.trans ?_ (deliverRing_latch d fuel _ i)
      exact hh.trans (.same rfl rfl)

theorem pumpQ_latch (d : Dev) (r : Rep) (k : Nat) : LatchKept r (pumpQ d r k) := deliverRing_latch ..

theorem qPage_ne_flt (k : Nat) : qPage k ≠ pgFLT := by
  unfold qPage pgQ pgGQ pgFLT
  split <;> omega

/-- Making an item changes no header; the events that follow are of queue pages and of HOST. -/
theorem enqueue_latch (d : Dev) (r : Rep) (k typ words : Nat) (l : List (Nat × Nat)) :
    LatchKept r (enqueue d r k typ words l).1 ∧ ∀ e ∈ (enqueue d r k typ words l).2, e.1 ≠ pgFLT := by
  have hq := qPage_ne_flt k
  have hh : pgHOST ≠ pgFLT := by decide
  unfold enqueue
  extract_lets pg b q seq q1 short q2 r1 it h lvl cross q3 r2
  split
  · exact ⟨.refl r, by simp⟩
  · split
    · split
      · exact ⟨.same rfl rfl, by simp [pg, hq, hh]⟩
      · exact ⟨.same rfl rfl, by simp [pg, hq]⟩
    · refine ⟨.same rfl rfl, ?_⟩
      dsimp only
      split <;> simp [pg, hq]

theorem foldReport_latch {f : Rep → Nat × Nat → Rep} (h : ∀ r e, e.1 ≠ pgFLT → LatchKept r (f r e)) :
    ∀ (l : List (Nat × Nat)) (r : Rep), (∀ e ∈ l, e.1 ≠ pgFLT) → LatchKept r (l.foldl f r)
  | [], r, _ => .refl r
  | e :: t, r, he => (h r e (he e (List.mem_cons_self ..))).trans
      (foldReport_latch h t _ fun x hx => he x (List.mem_cons_of_mem _ hx))

theorem pageEvent_latch (d : Dev) (r : Rep) (p bits : Nat) : LatchKept r (pageEvent d r p bits) := by
  unfold pageEvent
  split
  · exact .refl r
  next g _ =>
    obtain ⟨h1, h2⟩ := enqueue_latch d r (qGlob g) 0x88 1 [(p, 16), (bits, 16)]
    exact (h1.trans (foldReport_latch (fun _ _ he => raiseVec_latch _ _ fun e => absurd e he) _ _ h2)).trans (pumpQ_latch ..)

/-- The PAGE_EVENT item of an event leaves the latch. -/
theorem raiseR_after_raiseVec (d : Dev) (r : Rep) (p bits : Nat) : LatchKept (raiseVec d r p bits) (raiseR d r p bits) := by
  unfold raiseR
  extract_lets unm r1
  split
  · exact pageEvent_latch ..
  · exact .refl _

theorem raiseR_latch (d : Dev) (r : Rep) {p bits : Nat} (h : p = pgFLT → bits.testBit 1 = false) :
    LatchKept r (raiseR d r p bits) := (raiseVec_latch d r h).trans (raiseR_after_raiseVec ..)

theorem putItemR_latch (d : Dev) (r : Rep) (k typ words : Nat) (l : List (Nat × Nat)) :
    LatchKept r (putItemR d r k typ words l) := by
  obtain ⟨h1, h2⟩ := enqueue_latch d r k typ words l
  exact (h1.trans (foldReport_latch (fun _ _ he => raiseR_latch _ _ fun e => absurd e he) _ _ h2)).trans (pumpQ_latch ..)

theorem raise_latch (d : Dev) {p : Nat} (b : Nat) (h : p ≠ pgFLT) : LatchKept d.rep (raise d p b).rep :=
  raiseR_latch _ _ fun e => absurd e h

theorem putItem_latch (d : Dev) (k typ words : Nat) (l : List (Nat × Nat)) :
    LatchKept d.rep (putItem d k typ words l).rep :=
  putItemR_latch ..

theorem emitD_latch (d : Dev) (o : Out) : LatchKept d.rep (emitD d o).rep := .same rfl rfl

/-! Tally -/

theorem modTally_latch (r : Rep) (f : Tally → Tally) : LatchKept r (modTally r f) := .same rfl rfl

theorem startFlush_latch (r : Rep) : LatchKept r (startFlush r) := by
  unfold startFlush
  extract_lets t
  split
  · exact .refl r
  · split <;> exact modTally_latch ..

theorem stageNew_latch (d : Dev) (r : Rep) (x : TRec) : LatchKept r (stageNew d r x) := by
  unfold stageNew
  extract_lets t b y z r1 r2
  split
  · exact (modTally_latch ..).trans (raiseR_latch _ _ (by decide))
  · have h : LatchKept r r2 := (modTally_latch ..).trans (putItemR_latch ..)
    split
    · exact h.trans (startFlush_latch _)
    · exact h

theorem stageWith_latch (d : Dev) (r : Rep) (c s k : Nat) (f : Bool) (l : List (Nat × Nat × Nat)) (q : Bool) :
    LatchKept r (stageWith d r c s k f l q) := by
  unfold stageWith
  split
  · exact .refl r
  split
  · exact stageNew_latch ..
  split
  · split
    · exact modTally_latch ..
    · split
      · exact modTally_latch ..
      · exact stageNew_latch ..
  · exact stageNew_latch ..

theorem stageR_latch (d : Dev) (r : Rep) (c s k : Nat) (f : Bool) : LatchKept r (stageR d r c s k f) := by
  unfold stageR
  split <;> exact stageWith_latch ..

theorem raiseTally_latch (d : Dev) {p : Nat} (b : Nat) (h : p ≠ pgFLT) : LatchKept d.rep (raiseTally d p b).rep :=
  (raise_latch d b h).trans (stageR_latch ..)

end Sys2Proof.Machine
end

section
/-!
No reaction to a fault (R406) touches the first-fault latch.
-/

namespace Sys2Proof.Machine

/-! Outputs: transmit chains, protection and segments -/

theorem pgSEG_ne_flt (n : Nat) : pgSEG n ≠ pgFLT := by
  unfold pgSEG pgFLT
  omega

theorem pgTX_ne_flt {p : Nat} (h : p < 4) : pgTX p ≠ pgFLT := by
  unfold pgTX pgFLT
  omega

theorem pgEMK_ne_flt {p : Nat} (h : p < 4) : pgEMK p ≠ pgFLT := by
  unfold pgEMK pgFLT
  omega

theorem pgWVL_ne_flt (k : Nat) : pgWVL k ≠ pgFLT := by
  unfold pgWVL pgFLT
  omega

theorem wr_latch (d : Dev) (p : Nat) (f : Fld) (v : Nat) : LatchKept d.rep (wr d p f v).rep := .of_rep (wr_rep ..)
theorem wrS_latch (d : Dev) (p : Nat) (f : Fld) (z : Int) : LatchKept d.rep (wrS d p f z).rep := wr_latch ..
theorem wrB_latch (d : Dev) (p : Nat) (f : Fld) (b : Bool) : LatchKept d.rep (wrB d p f b).rep := wr_latch ..
theorem bump_latch (d : Dev) (p : Nat) (f : Fld) : LatchKept d.rep (bump d p f).rep := wr_latch ..
theorem modChain_latch (d : Dev) (p : Nat) (f : Chain → Chain) : LatchKept d.rep (modChain d p f).rep := .refl _
theorem modIso_latch (d : Dev) (n : Nat) (f : Iso → Iso) : LatchKept d.rep (modIso d n f).rep := .refl _
theorem setCond_latch (d : Dev) (c i : Nat) (x : Cond) : LatchKept d.rep (setCond d c i x).rep := .refl _
theorem condEvent_latch (d : Dev) (a b c e : Nat) : LatchKept d.rep (condEvent d a b c e).rep := .refl _
theorem reqBurst_latch (d : Dev) (w : BurstFor) : LatchKept d.rep (reqBurst d w).rep := .refl _

theorem setValid_latch (d : Dev) (n : Nat) (b : Bool) : LatchKept d.rep (setValid d n b).rep := by
  unfold setValid
  exact .ite (.refl _) ((wrB_latch ..).trans (raiseTally_latch _ _ (pgSEG_ne_flt n)))

theorem setCredit_latch (d : Dev) (n : Nat) (c : Int) : LatchKept d.rep (setCredit d n c).rep := by
  unfold setCredit
  extract_lets b e
  have he : LatchKept d.rep e.rep := wrS_latch ..
  clear_value e
  exact .ite (he.trans ((raise_latch _ _ (pgSEG_ne_flt n)).trans (putItem_latch ..))) he

theorem outputDropped_latch (d : Dev) (n : Nat) : LatchKept d.rep (outputDropped d n).rep := by
  unfold outputDropped isoDrop
  exact ((setValid_latch ..).trans (setCredit_latch ..)).trans ((modIso_latch ..).trans (modIso_latch ..))

theorem outputsDropped_latch (l : List Nat) (d : Dev) :
    LatchKept d.rep (forEach l (fun n d => outputDropped d n) d).rep :=
  forEach_latch l (fun _ _ _ => outputDropped_latch ..) d

theorem branchDropped_latch (b : Nat) (d : Dev) : LatchKept d.rep (branchDropped b d).rep := outputsDropped_latch _ d

/-- The end of a condition is noted in protection's own state. -/
theorem npEnd_rep (d : Dev) (c i : Nat) : (npEnd d c i).rep = d.rep := by
  unfold npEnd
  extract_lets x e
  split
  · rfl
  split
  · rfl
  split
  · rfl
  split <;> rfl

theorem txSet_latch (d : Dev) {p : Nat} (hp : p < 4) (st : Nat) : LatchKept d.rep (txSet d p st).rep := by
  unfold txSet
  extract_lets was e f g
  have he : LatchKept d.rep e.rep := ((wr_latch ..).trans (raise_latch _ 0 (pgTX_ne_flt hp))).trans (modChain_latch ..)
  have hf : LatchKept e.rep f.rep := .ite (wr_latch ..) (.refl _)
  have hg : LatchKept f.rep g.rep := (wr_latch ..).trans (modChain_latch ..)
  exact .ite (.refl _) (.ite (((he.trans hf).trans hg).trans (.of_rep (npEnd_rep g 5 p))) (he.trans hf))

theorem txBias_latch (d : Dev) {p : Nat} (hp : p < 4) : LatchKept d.rep (txBias d p).rep := by
  unfold txBias
  exact .ite (.refl _) (((modChain_latch ..).trans (txSet_latch _ hp _)).trans (reqBurst_latch ..))

theorem txPull_rep (d : Dev) (p : Nat) : (txPull d p).rep = d.rep := by
  unfold txPull
  split <;> rfl

theorem txGo_latch (d : Dev) {p : Nat} (hp : p < 4) : LatchKept d.rep (txGo d p).rep := by
  unfold txGo
  extract_lets e t st c
  have he : LatchKept d.rep e.rep := .of_rep (txPull_rep d p)
  have goes (st : Nat) : LatchKept d.rep (txSet e p st).rep := he.trans (txSet_latch e hp st)
  have goesMod (f : Chain → Chain) (st : Nat) : LatchKept d.rep (txSet (modChain e p f) p st).rep :=
    (he.trans (modChain_latch e p f)).trans (txSet_latch _ hp st)
  have bias : LatchKept d.rep (txBias e p).rep := he.trans (txBias_latch e hp)
  refine .ite (.ite (goes _) he) (.ite he (.ite ?on (.ite ?ready (.ite ?off ?held))))
  case on => exact .ite he (.ite (goesMod ..) bias)
  case ready => exact .ite (goes _) (.ite he bias)
  case off => exact .ite (goesMod ..) (goes _)
  case held => exact .ite (goes _) (goes _)

theorem txGoAll_latch (d : Dev) : LatchKept d.rep (txGoAll d).rep :=
  forEach_latch _ (fun _ h _ => txGo_latch _ (lt_of_ports4 h)) d

theorem quietEvidence_rep (n : Nat) (d : Dev) : (quietEvidence n d).rep = d.rep := by
  unfold quietEvidence
  split
  · rw [npEnd_rep, npEnd_rep]
    rfl
  · rfl

theorem modExt_latch (d : Dev) (k : Nat) (f : Ext → Ext) : LatchKept d.rep (modExt d k f).rep := .refl _
theorem setTrimRef_rep (d : Dev) (n : Nat) (r : GainRef) : (setTrimRef d n r).rep = d.rep := rfl

theorem sendBranch_latch (b : Nat) (d : Dev) : LatchKept d.rep (sendBranch b d).rep := by
  unfold sendBranch sendMsg
  exact (modExt_latch ..).trans (emitD_latch ..)

theorem npApply_latch (o d : Dev) : LatchKept d.rep (npApply o d).rep := by
  unfold npApply
  extract_lets a b c e f g
  have ha : LatchKept d.rep a.rep := .of_rep (forEach_rep (fun _ _ => setTrimRef_rep ..) _ d)
  have hb : LatchKept a.rep b.rep :=
    .ite (.refl _) ((raise_latch a 4 (by decide)).trans (forEach_latch _ (fun _ _ _ => emitD_latch ..) _))
  have hc : LatchKept b.rep c.rep := .ite (.refl _) (raise_latch b 5 (by decide))
  have he : LatchKept c.rep e.rep := forEach_latch _ (fun _ _ _ => .ite (branchDropped_latch ..) (.refl _)) c
  have hf : LatchKept e.rep f.rep := forEach_latch _ (fun _ _ d => .ite (.refl _)
    (LatchKept.trans (.ite (branchDropped_latch ..) (.refl d.rep)) (sendBranch_latch ..))) e
  have hg : LatchKept f.rep g.rep := .ite (outputsDropped_latch _ f) (.refl _)
  exact (ha.trans hb).trans ((hc.trans he).trans ((hf.trans hg).trans ((txGoAll_latch g).trans
    (.of_rep (forEach_rep quietEvidence_rep _ _)))))

theorem setLevel_latch (d : Dev) (c i l s : Nat) : LatchKept d.rep (setLevel d c i l s).rep := by
  unfold setLevel
  extract_lets x e f
  have hf : LatchKept d.rep f.rep := (setCond_latch ..).trans (condEvent_latch ..)
  exact .ite (.refl _) (.ite (hf.trans (raise_latch f 1 (by decide))) hf)

theorem npRaiseNow_latch (d : Dev) (c i : Nat) : LatchKept d.rep (npRaiseNow d c i).rep := by
  unfold npRaiseNow
  extract_lets x e f l l' g k
  have hf : LatchKept d.rep f.rep :=
    (((condEvent_latch ..).trans (bump_latch ..)).trans (raise_latch _ 0 (by decide))).trans (setCond_latch ..)
  have hg : LatchKept d.rep g.rep := hf.trans ((bump_latch ..).trans (setLevel_latch ..))
  have hk : LatchKept d.rep k.rep := hg.trans (setCond_latch ..)
  refine .ite hf (.ite (.ite (hk.trans ?_) hg) (hf.trans (setLevel_latch ..)))
  exact ((bump_latch ..).trans (condEvent_latch ..)).trans (raise_latch _ 3 (by decide))

theorem npWake_latch (d : Dev) : LatchKept d.rep (npWake d).rep := by
  unfold npWake
  exact .ite (foldl_latch (fun _ _ => .ite ((npRaiseNow_latch ..).trans (npApply_latch ..)) (.refl _)) _ d) (.refl _)

theorem setMode_latch (d : Dev) (m : Mode) (row : Nat) : LatchKept d.rep (setMode d m row).rep := by
  unfold setMode
  extract_lets e
  have he : LatchKept d.rep e.rep := .refl _
  exact ((he.trans (wr_latch ..)).trans (raise_latch _ 0 (by decide))).trans ((txGoAll_latch _).trans (npWake_latch _))

/-! Reactions -/

theorem toRecovery_latch (d : Dev) : LatchKept d.rep (toRecovery d).rep := by
  unfold toRecovery
  exact .ite (setMode_latch ..) (.refl _)

theorem isolatePage_latch (p : Nat) (d : Dev) : LatchKept d.rep (isolatePage p d).rep := by
  refine ⟨rfl, ?_⟩
  rw [overflowRaw, isolatePage, modHdr, hdrOf_setHdr]
  split
  next e => rw [overflowRaw, e]
  · rfl

theorem takeAway_latch (d : Dev) (s : Nat) : LatchKept d.rep (takeAway d s).rep := by
  unfold takeAway
  exact .ite (.refl _) (.same rfl rfl)

theorem cfgTake_rep (d : Dev) (t : Nat) : (cfgTake d t).rep = d.rep := by
  unfold cfgTake
  split <;> rfl

theorem txTidy_rep (d : Dev) (t : Nat) : (txTidy d t).rep = d.rep := by
  unfold txTidy
  extract_lets e
  have he : e.rep = d.rep := by
    unfold e
    split <;> rfl
  split
  · exact he
  · exact (cfgTake_rep ..).trans he

theorem rxTidy_rep (d : Dev) (l : Nat) : (rxTidy d l).rep = d.rep := by
  unfold rxTidy
  split
  · rfl
  split
  · extract_lets e
    show e.rep = d.rep
    unfold e
    split <;> rfl
  · rfl

/-- The link's slots and messages are no reports. -/
theorem linkTidy_rep (d : Dev) : (linkTidy d).rep = d.rep :=
  (foldl_rep rxTidy_rep ..).trans (foldl_rep txTidy_rep ..)

theorem checkModem_latch (d : Dev) : LatchKept d.rep (checkModem d).rep := by
  unfold checkModem
  exact .ite (.refl _) (((wrB_latch ..).trans (raiseTally_latch _ 7 (by decide))).trans (.of_rep (linkTidy_rep _)))

theorem checkEngine_latch {p : Nat} (hp : p < 4) (d : Dev) : LatchKept d.rep (checkEngine p d).rep := by
  unfold checkEngine
  extract_lets ne un e f
  have he : LatchKept d.rep e.rep := .ite (.refl _) ((wrB_latch ..).trans (raiseTally_latch _ 5 (pgTX_ne_flt hp)))
  have hf : LatchKept d.rep f.rep := he.trans ((wrB_latch ..).trans (raiseTally_latch _ 5 (pgEMK_ne_flt hp)))
  exact .ite he (.ite ((hf.trans (modChain_latch ..)).trans (.of_rep (npEnd_rep ..))) hf)

theorem checkEngines_latch (d : Dev) : LatchKept d.rep (checkEngines d).rep :=
  (forEach_latch _ (fun _ h d => checkEngine_latch (lt_of_ports4 h) d) d).trans (checkModem_latch _)

theorem setUsed_latch (d : Dev) : LatchKept d.rep (setUsed d).rep := wr_latch ..

theorem capEnd_latch (d : Dev) (ch st : Nat) : LatchKept d.rep (capEnd d ch st).rep := by
  unfold capEnd
  extract_lets e k
  have he : LatchKept d.rep e.rep := (wr_latch ..).trans (setUsed_latch _)
  exact he.trans ((raise_latch _ _ (by decide)).trans (putItem_latch ..))

theorem capStopAll_latch (d : Dev) : LatchKept d.rep (capStopAll d).rep :=
  forEach_latch _ (fun _ _ _ => capEnd_latch ..) d

theorem ringOff_rep (i : Nat) (d : Dev) : (ringOff i d).rep = d.rep := wr_rep ..
theorem dmaOff_rep (c : Nat) (d : Dev) : (dmaOff c d).rep = d.rep := by rw [dmaOff, wr_rep, wr_rep, wr_rep]

/-- A lost master leaves the reports as they are. -/
theorem masterLost_rep (d : Dev) : (masterLost d).rep = d.rep := by
  rw [masterLost, wr_rep, setInflight, wr_rep, forEach_rep dmaOff_rep, forEach_rep ringOff_rep]

theorem isolateAgent_latch (d : Dev) : LatchKept d.rep (isolateAgent d).rep := by
  unfold isolateAgent agentReset
  exact (takeAway_latch d 136).trans (.ite (.of_rep (masterLost_rep _)) (.refl _))

theorem tallyHalt_latch (d : Dev) : LatchKept d.rep (tallyHalt d).rep := .same rfl rfl
theorem isoDrop_rep (n : Nat) (d : Dev) : (isoDrop d n).rep = d.rep := rfl

theorem isolatePages_latch (l : List Nat) (d : Dev) : LatchKept d.rep (forEach l isolatePage d).rep :=
  forEach_latch l (fun _ _ _ => isolatePage_latch ..) d

theorem isolateCluster_latch (d : Dev) (k : Nat) (hit : List Nat) : LatchKept d.rep
    (forEach hit (fun n d => isoDrop d n)
      (raise (wr (isolatePage (pgWVL k) d) (pgWVL k) WVL.WVL_STAT_ISOLATED 1) (pgWVL k) 0)).rep :=
  (((isolatePage_latch ..).trans (wr_latch ..)).trans (raise_latch _ 0 (pgWVL_ne_flt k))).trans
    (.of_rep (forEach_rep isoDrop_rep _ _))

theorem isolateBlock_latch (d : Dev) (s : Nat) : LatchKept d.rep (isolateBlock d s).rep := by
  unfold isolateBlock
  refine .ite ?cluster (.ite ?dram (.ite (isolateAgent_latch d) (.ite ?tally (.ite ?trust (.ite ?runtime ?region)))))
  case cluster =>
    have h := isolateCluster_latch d (s - 96) (d.act.filter fun n => decide (carrierOf d n = some (s - 96)))
    exact .ite (h.trans (checkEngines_latch _)) h
  case dram => exact (takeAway_latch d 131).trans (capStopAll_latch _)
  case tally => exact (isolatePages_latch _ d).trans (tallyHalt_latch _)
  case trust => exact isolatePages_latch trustPages d
  case runtime => exact (takeAway_latch d 135).trans (takeAway_latch ..)
  case region => exact takeAway_latch ..

theorem silence_latch (d : Dev) : LatchKept d.rep (silence d).rep := by
  unfold silence
  extract_lets e f
  have he : LatchKept d.rep e.rep := .same rfl rfl
  have hf : LatchKept e.rep f.rep := forEach_latch _ (fun _ _ _ => emitD_latch ..) e
  exact .ite (.refl _) ((he.trans hf).trans ((outputsDropped_latch _ f).trans (txGoAll_latch _)))

/-- No reaction to a fault touches the latch. -/
theorem react_latch (d : Dev) (s : Nat) : LatchKept d.rep (react d s).rep := by
  unfold react
  exact .ite (silence_latch d) (.ite (.ite (.refl _) ((isolateBlock_latch d s).trans (toRecovery_latch _))) (.refl _))

/-! What an event shows on its own page -/

theorem setFree_latch (d : Dev) (n : Nat) : LatchKept d.rep { d with free := n }.rep := .refl _
theorem setFree_frame {S : Nat → Bool} (d : Dev) (n : Nat) : Frame S d { d with free := n } := .same rfl rfl rfl

theorem faultShown_latch (d : Dev) (s : Nat) : LatchKept d.rep (faultShown d s).rep := by
  unfold faultShown
  extract_lets th
  refine .ite ?clock (.ite (bump_latch ..) (.ite ?worn (.refl _)))
  case clock => exact ((wr_latch ..).trans (bump_latch ..)).trans (raise_latch _ 0 (by decide))
  case worn => exact ((wr_latch ..).trans (setFree_latch ..)).trans (raise_latch _ 0 (by decide))

theorem faultShown_frame (d : Dev) (s : Nat) : Frame anyPage d (faultShown d s) := by
  unfold faultShown
  extract_lets th
  refine ite_frame ?clock (ite_frame (wr_any ..) (ite_frame ?worn (.refl d)))
  case clock => exact ((wr_any ..).trans (wr_any ..)).trans (raise_frame ..)
  case worn => exact ((wr_any ..).trans (setFree_frame ..)).trans (raise_frame ..)

end Sys2Proof.Machine
end

section
/-!
What an event writes into the first-fault latch and what FIRST_FAULT_CLEAR makes of it (R409).
-/

namespace Sys2Proof.Machine

/-! What an event writes into the latch -/

/-- The latch after an event of source s at device time t (R409). -/
def firstAfter (t : Nat) (f : FirstFault) (s : Nat) (real forced : Bool) (cycle : Nat) : FirstFault :=
  if f.valid then { f with overflow := true, ovfCnt := satAdd 16 f.ovfCnt 1 }
  else ⟨true, false, real, forced, srcClass s, s, t % 4294967296, cycle, 0⟩

/-- An event has been latched: INT_RAW bit 1 is set where it changed OVERFLOW of a full latch to 1. -/
structure FirstLatched (t s : Nat) (real forced : Bool) (cycle : Nat) (r r' : Rep) : Prop where
  first : r'.flt.first = firstAfter t r.flt.first s real forced cycle
  bit : overflowRaw r' = (overflowRaw r || (r.flt.first.valid && ! r.flt.first.overflow))

section
variable {t s cycle : Nat} {real forced : Bool} {a b c : Rep}

theorem LatchKept.latched (h : LatchKept a b) (k : FirstLatched t s real forced cycle b c) :
    FirstLatched t s real forced cycle a c :=
  ⟨by rw [k.first, h.first], by rw [k.bit, h.bit, h.first]⟩

theorem FirstLatched.kept (h : FirstLatched t s real forced cycle a b) (k : LatchKept b c) :
    FirstLatched t s real forced cycle a c :=
  ⟨k.first.trans h.first, k.bit.trans h.bit⟩

theorem FirstLatched.fills (h : FirstLatched t s real forced cycle a b) (hv : a.flt.first.valid = false) :
    b.flt.first = ⟨true, false, real, forced, srcClass s, s, t % 4294967296, cycle, 0⟩
      ∧ overflowRaw b = overflowRaw a :=
  ⟨by rw [h.first, firstAfter, hv, if_neg Bool.false_ne_true], by rw [h.bit, hv, Bool.false_and, Bool.or_false]⟩

theorem FirstLatched.counts (h : FirstLatched t s real forced cycle a b) (hv : a.flt.first.valid = true) :
    b.flt.first = { a.flt.first with overflow := true, ovfCnt := min 65535 (a.flt.first.ovfCnt + 1) }
      ∧ overflowRaw b = (overflowRaw a || ! a.flt.first.overflow) :=
  ⟨by rw [h.first, firstAfter, if_pos hv]; rfl, by rw [h.bit, hv, Bool.true_and]⟩

end

theorem latchFault_latched (d : Dev) (r : Rep) (s : Nat) (real forced : Bool) (cycle : Nat) :
    FirstLatched d.devLoop s real forced cycle r (latchFault d r s real forced cycle) := by
  unfold latchFault
  extract_lets f r1
  split
  next hv =>
    have hv : r.flt.first.valid = false := by simpa [f] using hv
    refine FirstLatched.kept ⟨?_, ?_⟩ (raiseR_latch _ _ (by decide))
    · simp [firstAfter, hv, modFlt]
    · rw [hv, Bool.false_and, Bool.or_false]
      rfl
  next hv =>
    have hv : r.flt.first.valid = true := by simpa [f] using hv
    have first : r1.flt.first = firstAfter d.devLoop r.flt.first s real forced cycle := (if_pos hv).symm
    split
    next ho =>
      have ho : r.flt.first.overflow = true := ho
      refine ⟨first, ?_⟩
      rw [hv, ho, Bool.not_true, Bool.and_false, Bool.or_false]
      rfl
    next ho =>
      have ho : r.flt.first.overflow = false := eq_false_of_ne_true ho
      have raised : overflowRaw (raiseR d r1 pgFLT 2) = true := raiseR_sets d r1 pgFLT 1 (by decide)
      refine ⟨by rw [(raiseR_reports ..).flt, first], ?_⟩
      rw [raised, hv, ho, Bool.not_false, Bool.and_true, Bool.or_true]

theorem classBit_testBit (cls : Nat) : (classBit cls).testBit 1 = false := by
  unfold classBit
  split
  · rfl
  · split <;> rfl

/-- What a registered event records beside the latch, its class bit, Tally record and item, leaves the latch. -/
theorem recordFault_latched (d : Dev) (r : Rep) (s : Nat) (real forced : Bool) (cycle : Nat) (defer : Bool) :
    FirstLatched d.devLoop s real forced cycle r (recordFault d r s real forced cycle defer) := by
  unfold recordFault
  extract_lets c1 limited c2 r1 r2 r3 r4
  have h1 : LatchKept r r1 := .same rfl rfl
  have h3 : FirstLatched d.devLoop s real forced cycle r r3 :=
    h1.latched ((latchFault_latched ..).kept (raiseR_latch _ _ fun _ => classBit_testBit _))
  have h4 : LatchKept r3 r4 := by
    unfold r4
    split
    · exact modTally_latch ..
    · exact stageR_latch ..
  split
  · exact h3
  · exact h3.kept (h4.trans (putItemR_latch ..))

/-- One event of an implemented source is latched once, whatever it shows and however the engine reacts. -/
theorem faultOne_latched (cycle : Nat) (d : Dev) {s : Nat} (hs : (srcInfo s).isSome = true) (real forced : Bool) :
    FirstLatched d.devLoop s real forced cycle d.rep (faultOne cycle d (s, real, forced)).rep := by
  unfold faultOne
  extract_lets s' reacts e defer g
  obtain ⟨he, ht⟩ : LatchKept d.rep e.rep ∧ e.devLoop = d.devLoop := by
    unfold e
    split
    · obtain ⟨_, ht, _⟩ := (faultShown_frame d s).sameCore
      exact ⟨faultShown_latch d s, ht⟩
    · exact ⟨.refl _, rfl⟩
  have hg : FirstLatched d.devLoop s real forced cycle d.rep g.rep :=
    he.latched (ht ▸ recordFault_latched e e.rep s real forced cycle defer)
  rw [if_neg (Option.isSome_iff_ne_none.1 hs)]
  split
  · exact hg.kept (react_latch g s)
  · exact hg

/-! The commands -/

theorem exec_faultDetect (cycle : Fin 37500) (l : List (Fin 256)) (s : State) :
    exec (.faultDetect cycle l) s = onDev s fun d => faultEvents d cycle (joinEvents [] (l.map Fin.val)) := rfl

theorem exec_faultForceWrite (page : Fin 16384) (bits : Word) (cycle : Fin 37500) (l : List (Fin 256)) (s : State) :
    exec (.faultForceWrite page bits cycle l) s = onDev s fun d => faultForce d page bits.toNat cycle (l.map Fin.val) := rfl

theorem exec_firstFaultClear (cycle : Fin 37500) (l : List (Fin 256)) (s : State) :
    exec (.firstFaultClear cycle l) s = onDev s fun d => firstClear d cycle (l.map Fin.val) := rfl

/-- One event alone is its own order. -/
theorem faultEvents_singleton (d : Dev) (cycle : Nat) (e : Nat × Bool × Bool) :
    faultEvents d cycle [e] = faultOne cycle d e := rfl

theorem joinEvents_real (src : Nat) : joinEvents [] [src] = [(src, true, false)] := rfl
theorem joinEvents_forced (src : Nat) : joinEvents [src] [] = [(src, false, true)] := rfl

/-- Every source that FAULT_FORCE of a page names is implemented. -/
theorem isSome_of_mem_forceSources {page bits s : Nat} (h : s ∈ forceSources page bits) : (srcInfo s).isSome = true := by
  obtain ⟨_, h⟩ := List.mem_filter.1 h
  cases hs : srcInfo s with
  | none => simp [hs] at h
  | some x => rfl

/-- FAULT_FORCE of one source in TEST registers that source alone. -/
theorem faultForce_single {d : Dev} {page bits src : Nat} (cycle : Nat) (hm : d.mode = .test)
    (hb : bits &&& forceAssigned page = bits) (hf : forceSources page bits = [src]) :
    faultForce d page bits cycle [] = faultOne cycle d (src, false, true) := by
  rw [faultForce, if_neg (by simp [hm, hb]), hf, joinEvents_forced, faultEvents_singleton]

/-- The engine with its latch open and its overflow forgotten (R409). -/
def latchCleared (d : Dev) : Dev :=
  { d with rep := modFlt d.rep fun c => { c with first := { c.first with valid := false, overflow := false, ovfCnt := 0 } } }

@[simp] theorem latchCleared_devLoop (d : Dev) : (latchCleared d).devLoop = d.devLoop := rfl
@[simp] theorem latchCleared_overflowRaw (d : Dev) : overflowRaw (latchCleared d).rep = overflowRaw d.rep := rfl

theorem latchCleared_frame {S : Nat → Bool} (d : Dev) : Frame S d (latchCleared d) :=
  .report ⟨Heads.same_hdr rfl, fun _ x => x, fun x => x⟩

theorem latchCleared_onlyRegs (d : Dev) : OnlyRegs d (latchCleared d) [] :=
  fun p o ho _ => (latchCleared_frame (S := fun _ => false) d).regs p o rfl ho

theorem firstClear_nil (d : Dev) (cycle : Nat) : firstClear d cycle [] = latchCleared d := rfl
theorem firstClear_singleton (d : Dev) (cycle src : Nat) :
    firstClear d cycle [src] = faultOne cycle (latchCleared d) (src, true, false) := rfl

/-- Settles O15: no reaction to an event touches the latch, so one event alone is latched exactly once. -/
theorem theFirstFaultIsLatched : Obligations.TheFirstFaultIsLatched := by
  intro s hs f after
  have latched {e : Dev} {src cycle : Nat} {real forced : Bool}
      (h : FirstLatched s.dev.devLoop src real forced cycle s.dev.rep e.rep) :
      after (! f.valid) e src cycle real forced := by
    cases hv : f.valid with
    | false =>
      obtain ⟨hf, hb⟩ := h.fills hv
      simp [after, rawBit_flt, hf, hb]
    | true =>
      obtain ⟨hf, hb⟩ := h.counts hv
      simp [after, rawBit_flt, hf, hb, f, hv]
  refine ⟨fun cycle src hsrc => ?detect, fun page bits cycle src hm hb hf => ?force, fun cycle => ?clear,
    fun cycle src hsrc => ?refill⟩
  case detect =>
    refine does_onDev (exec_faultDetect ..) hs (latched ?_)
    rw [settle_rep, List.map_singleton, joinEvents_real, faultEvents_singleton]
    exact faultOne_latched cycle s.dev hsrc true false
  case force =>
    refine does_onDev (exec_faultForceWrite ..) hs (latched ?_)
    have hsrc : (srcInfo src).isSome = true := isSome_of_mem_forceSources (hf ▸ List.mem_singleton_self src)
    rw [settle_rep, List.map_nil, faultForce_single cycle hm hb hf]
    exact faultOne_latched cycle s.dev hsrc false true
  case clear =>
    refine does_onDev (exec_firstFaultClear ..) hs ?_
    rw [List.map_nil, firstClear_nil]
    exact ⟨rfl, rfl, latchCleared_onlyRegs s.dev, (latchCleared_frame (S := anyPage) s.dev).sameCore⟩
  case refill =>
    refine does_onDev (exec_firstFaultClear ..) hs ?_
    rw [List.map_singleton, firstClear_singleton]
    obtain ⟨hf, hb⟩ := (faultOne_latched cycle (latchCleared s.dev) hsrc true false).fills rfl
    simp [after, rawBit_flt, hf, hb]

end Sys2Proof.Machine
end

section
/-!
Keys read from capture memory, what a refusal leaves, and ENROLL_FIRST (R457).
-/

namespace Sys2Proof.Machine

/-! A key's bytes as dwords -/

/-- The dword at an address of capture memory, lowest byte first. -/
def memDword (m : Mem) (a : Nat) : Nat :=
  leNat [memRead m a, memRead m (a + 1), memRead m (a + 2), memRead m (a + 3)]

theorem byteDwords_memLoad (m : Mem) :
    ∀ n a, byteDwords (memLoad m a (4 * n)) = (List.range n).map fun i => memDword m (a + 4 * i)
  | 0, _ => rfl
  | n + 1, a => by
    have first : byteDwords (memLoad m a (4 * (n + 1))) = memDword m a :: byteDwords (memLoad m (a + 4) (4 * n)) := rfl
    rw [first, byteDwords_memLoad m n (a + 4), List.range_succ_eq_map, List.map_cons, List.map_map]
    refine congrArg _ (List.map_congr_left fun i _ => ?_)
    exact congrArg (memDword m) (by omega)

theorem keyAt_dwords (m : Mem) (a : Nat) : (keyAt m a).dwords = (List.range 17).map fun i => memDword m (a + 4 * i) :=
  byteDwords_memLoad m 17 a

theorem keyAt_dwords_length (m : Mem) (a : Nat) : (keyAt m a).dwords.length = 17 := by
  rw [keyAt_dwords, List.length_map, List.length_range]

theorem keyAt_dwords_getD (m : Mem) (a : Nat) (i : Fin 17) : (keyAt m a).dwords.getD i 0 = memDword m (a + 4 * i) := by
  rw [keyAt_dwords, List.getD_eq_getElem?_getD, List.getElem?_map, List.getElem?_range i.isLt, Option.map_some,
    Option.getD_some]

/-! Operator slots -/

theorem opKey'_setOpKey (t : Trust) (k : Nat) (x : Option PubKey) (i : Nat) :
    opKey' (setOpKey t k x) i = if i = k then x else opKey' t i := tget_tset ..

theorem enrolled_eq_nil_iff (t : Trust) : enrolled t = [] ↔ ∀ k : Fin 8, opKey' t k = none := by
  rw [enrolled, List.filter_eq_nil_iff]
  constructor
  · intro h k
    exact Option.not_isSome_iff_eq_none.1 (h k (List.mem_range.2 k.isLt))
  · intro h k hk
    exact Option.not_isSome_iff_eq_none.2 (h ⟨k, List.mem_range.1 hk⟩)

/-! Refusals -/

theorem setError_error (d : Dev) (p o : Nat) : (hdr (setError d p o) p).error = true := by
  unfold setError
  extract_lets h r r2
  split
  next he => exact he
  next =>
    have hr : (hdrOf r p).error = true := by rw [hdrOf_setHdr, if_pos rfl]
    have report {r' : Rep} (k : Reports r r') : (hdrOf r' p).error = true := by
      obtain ⟨w, hw⟩ := k.hdr p
      rw [hw, hr]
    have counted : Reports r r2 := .same rfl rfl rfl
    have shown : Reports r2 { r2 with errValid := true, errPage := p } := .same rfl rfl rfl
    show (hdrOf (if r2.errValid = true then r2 else _) p).error = true
    split
    · exact report counted
    · exact report (counted.trans (shown.trans (raiseR_reports ..)))

theorem Frame.onlyRegs_nil {d e : Dev} (h : Frame (fun _ => false) d e) : OnlyRegs d e [] :=
  fun p o ho _ => h.regs p o rfl ho

@[simp] theorem onlyRegs_settle (d e : Dev) (l : List (Nat × Nat)) : OnlyRegs d (settle e) l ↔ OnlyRegs d e l := Iff.rfl

theorem setError_turnedAway (d : Dev) (p o : Nat) : TurnedAway d (setError d p o) p :=
  ⟨setError_error d p o, (setError_frame d p o).onlyRegs_nil, (setError_frame (S := anyPage) d p o).sameCore⟩

theorem unlessLocked_closed {d : Dev} {p : Nat} (h : ¬ Unlocked d p) (o : Nat) (f : Dev → Dev) :
    unlessLocked d p o f = setError d p o := if_pos (eq_true_of_ne_false h)

/-! ENROLL_FIRST -/

/-- The address that TOK_SRC names. -/
def tokSrc (d : Dev) : Nat := 4096 * rd d pgTRUST TRUST.TOK_SRC_SRC

/-- What a write of 1 to ENROLL_FIRST needs: the trust page in use and unlocked, no operator key, the strap MAINTENANCE
and the key's 68 bytes within capture memory (R457). -/
def MayEnrollFirst (d : Dev) : Prop :=
  (hdr d pgTRUST).enable = true ∧ Unlocked d pgTRUST ∧ (∀ k : Fin 8, opKey' d.trust k = none)
    ∧ rd d pgMODE MODE.STRAP_BOOT_MODE = 3 ∧ tokSrc d + 68 ≤ 25769803776

/-- The engine with a key enrolled in slot 0, recorded in Tally and shown as INT_RAW bit 4 of the trust page. -/
def firstEnrolled (d : Dev) (key : PubKey) : Dev :=
  raise (tally (modTrust d fun t => setOpKey t 0 (some key)) 0x4305 0 0) pgTRUST 4

/-- The model's refusals of ENROLL_FIRST are the failures of its conditions. -/
theorem not_enrollFirstRefused_iff (d : Dev) :
    ¬ (trustOut d = true ∨ enrolled d.trust ≠ [] ∨ rd d pgMODE MODE.STRAP_BOOT_MODE ≠ 3 ∨ capBytes < tokSrc d + 68) ↔
      (hdr d pgTRUST).enable = true ∧ (∀ k : Fin 8, opKey' d.trust k = none) ∧ rd d pgMODE MODE.STRAP_BOOT_MODE = 3
        ∧ tokSrc d + 68 ≤ 25769803776 := by
  rw [← enrolled_eq_nil_iff]
  simp only [not_or, trustOut, capBytes, Bool.not_eq_true, Bool.not_eq_false', ne_eq, Decidable.not_not, Nat.not_lt]

theorem enrollFirst_eq (d : Dev) (m : Mem) :
    enrollFirst d m =
      if (hdr d pgTRUST).enable = true ∧ (∀ k : Fin 8, opKey' d.trust k = none) ∧ rd d pgMODE MODE.STRAP_BOOT_MODE = 3
          ∧ tokSrc d + 68 ≤ 25769803776 then firstEnrolled d (keyAt m (tokSrc d))
      else setError d pgTRUST 0x58 := by
  have hsrc : rd d pgTRUST TRUST.TOK_SRC_SRC * 4096 = tokSrc d := Nat.mul_comm ..
  rw [enrollFirst, hsrc]
  split
  next hrefused => exact (if_neg fun h => (not_enrollFirstRefused_iff d).2 h hrefused).symm
  next htaken => exact (if_pos ((not_enrollFirstRefused_iff d).1 htaken)).symm

theorem enrollFirst_enrols {d : Dev} (h : MayEnrollFirst d) (m : Mem) :
    (unlessLocked d pgTRUST 0x58 fun d => enrollFirst d m) = firstEnrolled d (keyAt m (tokSrc d)) := by
  obtain ⟨henable, hopen, hnone, hstrap, hfits⟩ := h
  rw [unlessLocked_open hopen, enrollFirst_eq, if_pos ⟨henable, hnone, hstrap, hfits⟩]

theorem enrollFirst_refused {d : Dev} (h : ¬ MayEnrollFirst d) (m : Mem) :
    (unlessLocked d pgTRUST 0x58 fun d => enrollFirst d m) = setError d pgTRUST 0x58 := by
  by_cases hopen : Unlocked d pgTRUST
  · rw [unlessLocked_open hopen, enrollFirst_eq, if_neg]
    exact fun ⟨henable, hnone, hstrap, hfits⟩ => h ⟨henable, hopen, hnone, hstrap, hfits⟩
  · exact unlessLocked_closed hopen ..

/-- What follows the enrolment is a report. -/
theorem firstEnrolled_frame {S : Nat → Bool} (d : Dev) (key : PubKey) :
    Frame S (modTrust d fun t => setOpKey t 0 (some key)) (firstEnrolled d key) :=
  (tally_frame ..).trans (raise_frame ..)

@[simp] theorem firstEnrolled_trust (d : Dev) (key : PubKey) :
    (firstEnrolled d key).trust = setOpKey d.trust 0 (some key) := rfl
@[simp] theorem firstEnrolled_boot (d : Dev) (key : PubKey) : (firstEnrolled d key).boot = d.boot := rfl
@[simp] theorem firstEnrolled_mode (d : Dev) (key : PubKey) : (firstEnrolled d key).mode = d.mode := rfl

theorem firstEnrolled_onlyRegs (d : Dev) (key : PubKey) : OnlyRegs d (firstEnrolled d key) [] :=
  (firstEnrolled_frame d key).onlyRegs_nil

theorem firstEnrolled_raw (d : Dev) (key : PubKey) : rawBit (firstEnrolled d key) pgTRUST 4 = true :=
  rawBit_raise _ _ _ (by decide)

theorem exec_enrollFirst (s : State) :
    exec .enrollFirst s = onDev s fun d => unlessLocked d pgTRUST 0x58 fun d => enrollFirst d s.cap := rfl

/-- Settles O60: the command either enrols the key at TOK_SRC into slot 0 or is turned away as a whole. -/
theorem theFirstKeyIsEnrolled : Obligations.TheFirstKeyIsEnrolled := by
  intro s hs
  refine does_onDev (exec_enrollFirst s) hs ?_
  intro a
  split
  case isTrue h =>
    have ⟨_, _, hnone, _⟩ := h
    simp only [enrollFirst_enrols h, settle_trust, settle_rawBit, settle_boot, settle_mode, onlyRegs_settle,
      firstEnrolled_trust, firstEnrolled_boot, firstEnrolled_mode, opKey'_setOpKey, if_true, and_true]
    refine ⟨⟨⟨keyAt s.cap a, rfl, keyAt_dwords_length .., fun i => keyAt_dwords_getD s.cap a i⟩, fun k hk => ?others,
      firstEnrolled_raw ..⟩, rfl, firstEnrolled_onlyRegs s.dev _⟩
    case others => rw [if_neg (Fin.val_ne_zero_iff.2 hk), hnone]
  case isFalse h =>
    rw [enrollFirst_refused h]
    obtain ⟨herror, hregs, -, -, -, -, hmode, -, -, -, hboot, htrust, -⟩ := setError_turnedAway s.dev pgTRUST 0x58
    exact ⟨⟨htrust, herror⟩, by rw [settle_trust, htrust], hregs, hboot, hmode⟩

end Sys2Proof.Machine
end
